-- ==== Sys2Proof/Word.lean ====
section
/-! DEFINITION. The words of the machine: the widths the spec names (R2, R9), and nothing else. -/

namespace Sys2Proof

/-- A 64-bit scalar word (R9). -/
abbrev Word := BitVec 64
/-- A 32-bit vector lane (R9). -/
abbrev Lane := BitVec 32
/-- A byte of memory (R2). -/
abbrev Byte := BitVec 8

end Sys2Proof
end

