-- ==== Sys2Proof/Syntax.lean ====
section
/-! DEFINITION. Syntax of the Davoino's steps: one constructor of `Instr` per row of
spec/opcode_table.json. Rows 0-139 are 32-bit instruction words (R96-R103, fields as the table names
them); rows 140-202 are wide operations (R111), which a patch word or WIR has put into a queue, and whose
argument is the slot cluster on whose queue they run; rows 203-287 are the steps of the machine's other
agents, with what each needs to be one whole step. -/

namespace Sys2Proof

/-- The three wide queues of a slot cluster (R105). -/
inductive QueueName where
  | L | C | S
  deriving DecidableEq, Repr

/-- The three masters of the management block (R53: codes 1, 2 and 3). -/
inductive Master where
  | pfA | pfB | bmc
  deriving DecidableEq, Repr

/-- The four token buckets of a partition (R65). -/
inductive BucketName where
  | hbm | cxl | yareno | host
  deriving DecidableEq, Repr

/-- What a directory entry holds for a name, less its holders (R314). -/
structure NameKey where
  name   : BitVec 128
  sigma  : BitVec 64
  bcode  : BitVec 2
  test   : Bool
  parent : BitVec 128
  shape  : BitVec 32
  tokens : List (BitVec 32)
  deriving DecidableEq, Repr

/-- What a holder sends for NFETCH (R313): the node's key, its depth and the element bytes of its KV pages, in
page order; `holder` is the device that sent it. -/
structure RemoteNode where
  key    : NameKey
  depth  : BitVec 32
  holder : Nat
  pages  : List (List (Nat × BitVec 8))
  /-- poisoned lines of the pages, by page and line (R271) -/
  bad    : List (Nat × Nat) := []
  deriving DecidableEq, Repr

/-- One firmware image as the boot ROM finds it (R426): its bytes, its public key and its Falcon-1024 signature over its digest. -/
structure BootImage where
  code        : List (BitVec 8)
  key         : List (BitVec 8)
  keyIndex    : BitVec 2
  version     : BitVec 16
  signature   : List (BitVec 8)
  deriving DecidableEq, Repr

/-- A synchronising access of a peer device's core: who makes it, its scope, and the scope mode of its partition (R383, R384). -/
structure PeerSync where
  device : Nat
  core   : Nat
  scope  : BitVec 3
  mode   : BitVec 2
  deriving DecidableEq, Repr

/-- Operations of an atomic (R389). -/
inductive AtomOp where
  | add | and | or | xor | min | max | swp | cas
  deriving DecidableEq, Repr

/-- A peer's atomic: its operation, its operand, and the new value of a compare-and-swap. -/
structure PeerAtom where
  op      : AtomOp
  operand : BitVec 64
  new     : BitVec 64 := 0
  deriving DecidableEq, Repr

/-- What a peer asks for (R34, R361, R383, R386): an atomic, else a store of bytes or, without them, a read; the tags of the words a store
carries; and its synchronisation, if any. -/
structure PeerRequest where
  store : Option (List (BitVec 8)) := none
  tags  : List Bool := []
  sync  : Option PeerSync := none
  atom  : Option PeerAtom := none
  deriving DecidableEq, Repr

/-- One step of the machine: one constructor per row of spec/opcode_table.json. -/
inductive Instr where
  /-- ADD (R136). Writes the sum of s[a] and s[b] modulo 2^64 to s[d]. -/
  | add (d : BitVec 6) (a : BitVec 6) (b : BitVec 6)
  /-- SUB (R136). Writes s[a] minus s[b] modulo 2^64 to s[d]. -/
  | sub (d : BitVec 6) (a : BitVec 6) (b : BitVec 6)
  /-- MUL (R136). Writes the low 64 bits of s[a] times s[b] to s[d]. -/
  | mul (d : BitVec 6) (a : BitVec 6) (b : BitVec 6)
  /-- MULH (R136). Writes the high 64 bits of the 128-bit product, signed, unsigned or mixed as the mode field selects. -/
  | mulh (d : BitVec 6) (a : BitVec 6) (b : BitVec 6) (m : BitVec 2)
  /-- DIV (R136). Writes the quotient rounded toward zero, signed or unsigned, with fixed results for division by zero and overflow. -/
  | div (d : BitVec 6) (a : BitVec 6) (b : BitVec 6) (u : BitVec 1)
  /-- REM (R136). Writes the remainder, whose sign follows the dividend, signed or unsigned. -/
  | rem (d : BitVec 6) (a : BitVec 6) (b : BitVec 6) (u : BitVec 1)
  /-- AND (R136). Writes the bitwise AND of s[a] and s[b]. -/
  | and (d : BitVec 6) (a : BitVec 6) (b : BitVec 6)
  /-- OR (R136). Writes the bitwise OR of s[a] and s[b]. -/
  | or (d : BitVec 6) (a : BitVec 6) (b : BitVec 6)
  /-- XOR (R136). Writes the bitwise XOR of s[a] and s[b]. -/
  | xor (d : BitVec 6) (a : BitVec 6) (b : BitVec 6)
  /-- ANDN (R136). Writes s[a] AND NOT s[b]. -/
  | andn (d : BitVec 6) (a : BitVec 6) (b : BitVec 6)
  /-- SHL (R136). Shifts s[a] left by s[b][5:0]. -/
  | shl (d : BitVec 6) (a : BitVec 6) (b : BitVec 6)
  /-- SHR (R136). Shifts s[a] right logically by s[b][5:0]. -/
  | shr (d : BitVec 6) (a : BitVec 6) (b : BitVec 6)
  /-- SAR (R136). Shifts s[a] right arithmetically by s[b][5:0]. -/
  | sar (d : BitVec 6) (a : BitVec 6) (b : BitVec 6)
  /-- ROR (R136). Rotates s[a] right by s[b][5:0]. -/
  | ror (d : BitVec 6) (a : BitVec 6) (b : BitVec 6)
  /-- MIN (R136). Writes the smaller of s[a] and s[b], signed or unsigned. -/
  | min (d : BitVec 6) (a : BitVec 6) (b : BitVec 6) (u : BitVec 1)
  /-- MAX (R136). Writes the larger of s[a] and s[b], signed or unsigned. -/
  | max (d : BitVec 6) (a : BitVec 6) (b : BitVec 6) (u : BitVec 1)
  /-- CMP (R136). Writes 1 if the selected comparison of s[a] and s[b] holds, else 0. -/
  | cmp (d : BitVec 6) (a : BitVec 6) (b : BitVec 6) (c : BitVec 3)
  /-- SEL (R136). Writes s[a] if s[c] is nonzero, else s[b]. -/
  | sel (d : BitVec 6) (a : BitVec 6) (b : BitVec 6) (c : BitVec 6)
  /-- CLZ (R136). Writes the count of leading zero bits of s[a]. -/
  | clz (d : BitVec 6) (a : BitVec 6)
  /-- CTZ (R136). Writes the count of trailing zero bits of s[a]. -/
  | ctz (d : BitVec 6) (a : BitVec 6)
  /-- POPC (R136). Writes the number of one bits of s[a]. -/
  | popc (d : BitVec 6) (a : BitVec 6)
  /-- SHADD (R136). Writes s[a] plus s[b] shifted left by 0 to 3. -/
  | shadd (d : BitVec 6) (a : BitVec 6) (b : BitVec 6) (k : BitVec 2)
  /-- BFX (R136). Extracts a bit field of s[a] at position s[b][5:0]. -/
  | bfx (d : BitVec 6) (a : BitVec 6) (b : BitVec 6) (w : BitVec 6)
  /-- BFI (R136). Inserts the low bits of s[a] into s[d] at position s[b][5:0]. -/
  | bfi (d : BitVec 6) (a : BitVec 6) (b : BitVec 6) (w : BitVec 6)
  /-- ADDI (R137). Adds a sign-extended 12-bit immediate to s[a]. -/
  | addi (d : BitVec 6) (a : BitVec 6) (i : BitVec 12)
  /-- ANDI (R137). ANDs s[a] with a sign-extended immediate. -/
  | andi (d : BitVec 6) (a : BitVec 6) (i : BitVec 12)
  /-- ORI (R137). ORs s[a] with a zero-extended immediate. -/
  | ori (d : BitVec 6) (a : BitVec 6) (i : BitVec 12)
  /-- XORI (R137). XORs s[a] with a zero-extended immediate. -/
  | xori (d : BitVec 6) (a : BitVec 6) (i : BitVec 12)
  /-- SHLI (R137). Shifts s[a] left by an immediate amount. -/
  | shli (d : BitVec 6) (a : BitVec 6) (i : BitVec 6)
  /-- SHRI (R137). Shifts s[a] right logically by an immediate amount. -/
  | shri (d : BitVec 6) (a : BitVec 6) (i : BitVec 6)
  /-- SARI (R137). Shifts s[a] right arithmetically by an immediate amount. -/
  | sari (d : BitVec 6) (a : BitVec 6) (i : BitVec 6)
  /-- MULI (R137). Multiplies s[a] by a sign-extended immediate, low 64 bits. -/
  | muli (d : BitVec 6) (a : BitVec 6) (i : BitVec 12)
  /-- CMPEQI (R137). Writes 1 if s[a] equals the sign-extended immediate. -/
  | cmpeqi (d : BitVec 6) (a : BitVec 6) (i : BitVec 12)
  /-- CMPLTI (R137). Writes 1 if s[a] is signed less than the immediate. -/
  | cmplti (d : BitVec 6) (a : BitVec 6) (i : BitVec 12)
  /-- CMPLTUI (R137). Writes 1 if s[a] is unsigned less than the sign-extended immediate. -/
  | cmpltui (d : BitVec 6) (a : BitVec 6) (i : BitVec 12)
  /-- LI (R138). Loads a sign-extended 18-bit immediate into s[d]. -/
  | li (d : BitVec 6) (i : BitVec 18)
  /-- LIS (R138). Shifts s[d] left by 18 and ORs in a zero-extended immediate. -/
  | lis (d : BitVec 6) (i : BitVec 18)
  /-- ADDPC (R138). Writes pc plus a sign-extended 18-bit byte offset. -/
  | addpc (d : BitVec 6) (i : BitVec 18)
  /-- BEQ (R139). Branches if s[a] equals s[b]. -/
  | beq (a : BitVec 6) (b : BitVec 6) (o : BitVec 12)
  /-- BNE (R139). Branches if s[a] differs from s[b]. -/
  | bne (a : BitVec 6) (b : BitVec 6) (o : BitVec 12)
  /-- BLT (R139). Branches if s[a] is signed less than s[b]. -/
  | blt (a : BitVec 6) (b : BitVec 6) (o : BitVec 12)
  /-- BGE (R139). Branches if s[a] is signed greater than or equal to s[b]. -/
  | bge (a : BitVec 6) (b : BitVec 6) (o : BitVec 12)
  /-- BLTU (R139). Branches if s[a] is unsigned less than s[b]. -/
  | bltu (a : BitVec 6) (b : BitVec 6) (o : BitVec 12)
  /-- BGEU (R139). Branches if s[a] is unsigned greater than or equal to s[b]. -/
  | bgeu (a : BitVec 6) (b : BitVec 6) (o : BitVec 12)
  /-- JMP (R140). Jumps to pc plus a 24-bit word offset. -/
  | jmp (o : BitVec 24)
  /-- JAL (R140). Writes the return address to s62 and jumps. -/
  | jal (o : BitVec 24)
  /-- JR (R140). Jumps to s[a] plus an immediate, optionally linking into s[d]. -/
  | jr (d : BitVec 6) (a : BitVec 6) (i : BitVec 12)
  /-- LOOP (R142). Arms a hardware loop level with trip count s[a] and an end address. -/
  | loop (a : BitVec 6) (l : BitVec 2) (e : BitVec 12)
  /-- LOOPM (R143). Waits on a memory flag, then arms a loop with the count that follows the flag. -/
  | loopm (h : BitVec 4) (l : BitVec 2) (f : BitVec 6) (e : BitVec 12)
  /-- LDB (R239). Loads a sign-extended byte through a handle. -/
  | ldb (d : BitVec 6) (h : BitVec 4) (o : BitVec 14)
  /-- LDBU (R239). Loads a zero-extended byte through a handle. -/
  | ldbu (d : BitVec 6) (h : BitVec 4) (o : BitVec 14)
  /-- LDH (R239). Loads a sign-extended halfword through a handle. -/
  | ldh (d : BitVec 6) (h : BitVec 4) (o : BitVec 14)
  /-- LDHU (R239). Loads a zero-extended halfword through a handle. -/
  | ldhu (d : BitVec 6) (h : BitVec 4) (o : BitVec 14)
  /-- LDW (R239). Loads a sign-extended word through a handle. -/
  | ldw (d : BitVec 6) (h : BitVec 4) (o : BitVec 14)
  /-- LDWU (R239). Loads a zero-extended word through a handle. -/
  | ldwu (d : BitVec 6) (h : BitVec 4) (o : BitVec 14)
  /-- LDD (R239). Loads a doubleword through a handle. -/
  | ldd (d : BitVec 6) (h : BitVec 4) (o : BitVec 14)
  /-- STB (R239). Stores a byte through a handle and clears the word's tag. -/
  | stb (s : BitVec 6) (h : BitVec 4) (o : BitVec 14)
  /-- STH (R239). Stores a halfword through a handle and clears the word's tag. -/
  | sth (s : BitVec 6) (h : BitVec 4) (o : BitVec 14)
  /-- STW (R239). Stores a word through a handle and clears the word's tag. -/
  | stw (s : BitVec 6) (h : BitVec 4) (o : BitVec 14)
  /-- STD (R239). Stores a doubleword through a handle and clears its tag. -/
  | std (s : BitVec 6) (h : BitVec 4) (o : BitVec 14)
  /-- LDX (R240). Loads through a handle at register offset s[x], with size and sign from fn. -/
  | ldx (d : BitVec 6) (h : BitVec 4) (x : BitVec 6) (g : BitVec 1) (z : BitVec 2)
  /-- STX (R240). Stores through a handle at register offset s[x]. -/
  | stx (s : BitVec 6) (h : BitVec 4) (x : BitVec 6) (z : BitVec 2)
  /-- LDREF (R244). Loads a reference, and raises TAG unless the word is a tagged reference. -/
  | ldref (d : BitVec 6) (h : BitVec 4) (o : BitVec 14)
  /-- STREF (R243). Stores a checked reference with its tag set. -/
  | stref (s : BitVec 6) (h : BitVec 4) (o : BitVec 14)
  /-- LDACQ (R391). Loads as an acquire at the named scope. -/
  | ldacq (d : BitVec 6) (h : BitVec 4) (x : BitVec 6) (g : BitVec 1) (c : BitVec 3) (z : BitVec 2)
  /-- STREL (R391). Stores as a release at the named scope. -/
  | strel (s : BitVec 6) (h : BitVec 4) (x : BitVec 6) (c : BitVec 3) (z : BitVec 2)
  /-- XLATE (R234). Starts a translation of s[a] into a handle register, which is translating for 32 cycles. -/
  | xlate (h : BitVec 4) (a : BitVec 6) (w : BitVec 1)
  /-- HINFO (R235). Reads the state, base, page size or generation of a handle. -/
  | hinfo (d : BitVec 6) (h : BitVec 4) (k : BitVec 2)
  /-- HDROP (R236). Makes a handle INVALID. -/
  | hdrop (h : BitVec 4)
  /-- STLK (R250). Looks up a key in the core's tag table. -/
  | stlk (d : BitVec 6) (a : BitVec 6)
  /-- STINS (R250). Inserts a key into a tag table entry, invalidating any other entry with that key. -/
  | stins (a : BitVec 6) (b : BitVec 6)
  /-- STINV (R250). Invalidates a tag table entry. -/
  | stinv (a : BitVec 6)
  /-- PKRD (R276). Issues a masked 8-byte packet read to the line's home under a packet tag. -/
  | pkrd (d : BitVec 6) (h : BitVec 4) (x : BitVec 6) (m : BitVec 8)
  /-- PKWR (R276). Issues a masked 8-byte packet write to the line's home under a packet tag. -/
  | pkwr (s : BitVec 6) (h : BitVec 4) (x : BitVec 6) (m : BitVec 8)
  /-- PKWT (R278). Waits until every packet tag of the cluster is free. -/
  | pkwt
  /-- OBJINIT (R242). Writes a new PRIVATE object header and enters the object's privacy record. -/
  | objinit (s : BitVec 6) (h : BitVec 4) (o : BitVec 14)
  /-- PUB (R393). Publishes the objects reachable from a reference, then stores it as a release. -/
  | pub (r : BitVec 6) (h : BitVec 4) (x : BitVec 6) (c : BitVec 3)
  /-- AADD (R389). Atomic add at the executing Crock. -/
  | aadd (d : BitVec 6) (h : BitVec 4) (x : BitVec 6) (z : BitVec 1) (c : BitVec 3) (o : BitVec 2)
  /-- AAND (R389). Atomic AND at the executing Crock. -/
  | aand (d : BitVec 6) (h : BitVec 4) (x : BitVec 6) (z : BitVec 1) (c : BitVec 3) (o : BitVec 2)
  /-- AOR (R389). Atomic OR at the executing Crock. -/
  | aor (d : BitVec 6) (h : BitVec 4) (x : BitVec 6) (z : BitVec 1) (c : BitVec 3) (o : BitVec 2)
  /-- AXOR (R389). Atomic XOR at the executing Crock. -/
  | axor (d : BitVec 6) (h : BitVec 4) (x : BitVec 6) (z : BitVec 1) (c : BitVec 3) (o : BitVec 2)
  /-- AMIN (R389). Atomic signed minimum at the executing Crock. -/
  | amin (d : BitVec 6) (h : BitVec 4) (x : BitVec 6) (z : BitVec 1) (c : BitVec 3) (o : BitVec 2)
  /-- AMAX (R389). Atomic signed maximum at the executing Crock. -/
  | amax (d : BitVec 6) (h : BitVec 4) (x : BitVec 6) (z : BitVec 1) (c : BitVec 3) (o : BitVec 2)
  /-- ASWP (R389). Atomic swap at the executing Crock. -/
  | aswp (d : BitVec 6) (h : BitVec 4) (x : BitVec 6) (z : BitVec 1) (c : BitVec 3) (o : BitVec 2)
  /-- ACAS (R389). Atomic compare-and-swap, writing s[d+1] only if the old value equals s[d]. -/
  | acas (d : BitVec 6) (h : BitVec 4) (x : BitVec 6) (z : BitVec 1) (c : BitVec 3) (o : BitVec 2)
  /-- FENCE_FULL (R392). Acquire and release fence at its scope, and the host flush at system scope. -/
  | fenceFull (c : BitVec 3)
  /-- FENCE_SS (R392). Orders earlier writes before later writes at its scope. -/
  | fenceSs (c : BitVec 3)
  /-- FENCE_LL (R392). Orders earlier reads before later reads at its scope. -/
  | fenceLl (c : BitVec 3)
  /-- FENCE_ENGINE (R392). Waits until every wide operation issued by the bank has completed. -/
  | fenceEngine (c : BitVec 3)
  /-- MONITOR (R396). Arms the bank's monitor on the line that holds the word. -/
  | monitor (h : BitVec 4) (o : BitVec 14)
  /-- MWAIT (R396). Waits for a write to the monitored line or for a timeout. -/
  | mwait (d : BitVec 6) (a : BitVec 6)
  /-- RWFREE (R397). Claims a free ring element for a writer, waiting for room. -/
  | rwfree (r : BitVec 6) (h : BitVec 4) (o : BitVec 14)
  /-- RPOST (R397). Posts a claimed ring element in claim order as a release. -/
  | rpost (r : BitVec 6) (h : BitVec 4) (o : BitVec 14)
  /-- RWFILL (R397). Waits for a posted ring element and acquires it. -/
  | rwfill (r : BitVec 6) (h : BitVec 4) (o : BitVec 14)
  /-- RFREE (R397). Frees a consumed ring element in order as a release. -/
  | rfree (r : BitVec 6) (h : BitVec 4) (o : BitVec 14)
  /-- FLADD (R398). Posts an add to a memory flag word at its Crock. -/
  | fladd (d : BitVec 6) (h : BitVec 4) (x : BitVec 6) (c : BitVec 3) (o : BitVec 2)
  /-- FLSET (R398). Sets a memory flag word at its Crock. -/
  | flset (d : BitVec 6) (h : BitVec 4) (x : BitVec 6) (c : BitVec 3) (o : BitVec 2)
  /-- FLSET_CORE_FLAG (R398). Sets a core flag as a release at core scope. -/
  | flsetCoreFlag (d : BitVec 6) (k : BitVec 6)
  /-- FLWAIT (R398). Waits until a memory flag word reaches a value, unsigned. -/
  | flwait (d : BitVec 6) (h : BitVec 4) (x : BitVec 6) (c : BitVec 3) (o : BitVec 2)
  /-- FLWAIT_CORE_FLAG (R398). Waits until a core flag equals a bit. -/
  | flwaitCoreFlag (d : BitVec 6) (k : BitVec 6)
  /-- DRAIN (R400). Clears a core flag and places markers in the masked priority levels. -/
  | drain (a : BitVec 6) (k : BitVec 6)
  /-- QPUSH (R144). Appends s[a] to a queue register, stalling while it is full. -/
  | qpush (a : BitVec 6) (q : BitVec 3)
  /-- QPOP (R144). Removes the oldest entry of a queue register, stalling while it is empty. -/
  | qpop (d : BitVec 6) (q : BitVec 3)
  /-- QPOLL (R144). Reads the number of entries in a queue register. -/
  | qpoll (d : BitVec 6) (q : BitVec 3)
  /-- GANG (R146). Splits the issuing group into sub-gangs of a narrower width. -/
  | gang (w : BitVec 2)
  /-- FORK (R147). Sends each member of the group to its own target address. -/
  | fork (a : BitVec 6)
  /-- JOIN (R148). Arrives at a gang sync bit to re-form the whole unit. -/
  | join (g : BitVec 3)
  /-- SPAWN (R154). Checks a continuation record, commits, publishes its frame and enqueues it. -/
  | spawn (h : BitVec 4) (o : BitVec 14)
  /-- JDEC (R155). Decrements a record's join counter and enqueues the record when it reaches zero. -/
  | jdec (h : BitVec 4) (o : BitVec 14)
  /-- COMMIT (R156). Marks the unit committed and starts its commit budget. -/
  | commit
  /-- DONE (R419). Fences engines, closes the unit's resources, waits for its writes and retires the unit. -/
  | unitDone
  /-- YIELD (R157). Discards and re-queues an uncommitted unit if an equally urgent record could start. -/
  | yield
  /-- CANCEL (R420). Commits the unit and sets the cancelled bit of a launch, graph, phase or job entry. -/
  | cancel (a : BitVec 6) (l : BitVec 3)
  /-- CCNT (R420). Reads a counter entry's outstanding or retired count as an acquire. -/
  | ccnt (d : BitVec 6) (a : BitVec 6) (r : BitVec 1) (l : BitVec 3)
  /-- TMPL (R150). Loads template slots from the scratchpad. -/
  | tmpl (t : BitVec 6) (a : BitVec 6) (c : BitVec 6)
  /-- WIR (R151). Issues a template with an amendment taken from a register. -/
  | wir (t : BitVec 6) (a : BitVec 6) (m : BitVec 1) (f : BitVec 3) (k : BitVec 4)
  /-- WMOV (R152). Copies a scalar register into a w register. -/
  | wmov (w : BitVec 3) (a : BitVec 6)
  /-- WGET (R152). Copies a w register into a scalar register. -/
  | wget (d : BitVec 6) (w : BitVec 3)
  /-- VLEASE (R216). Opens a Vat session and requests the Vat. -/
  | vlease (d : BitVec 6) (n : BitVec 7)
  /-- VFREE (R217). Closes the bank's Vat session. -/
  | vfree
  /-- AXBEGIN (R342). Opens a fitted region, obtaining the Churn's decision and substituting the surrogate when so decided. -/
  | axbegin (o : BitVec 24)
  /-- AXEND (R343). Closes a fitted region and sends its capture or check to the Churn. -/
  | axend
  /-- AXINV (R353). Invalidates the partition's regions at a code address on every die. -/
  | axinv (a : BitVec 6)
  /-- AXSTAT (R354). Reports the Churn state of a region. -/
  | axstat (d : BitVec 6) (a : BitVec 6)
  /-- PFX (R301). Finds the longest cached prefix of a prompt in the Creamery and leases its nodes. -/
  | pfx (n : BitVec 3) (a : BitVec 6) (b : BitVec 6) (r : BitVec 1)
  /-- SEAL (R305). Names, deduplicates, freezes, publishes and indexes an open node. -/
  | seal (d : BitVec 3) (o : BitVec 3)
  /-- NLEASE (R308). Extends a node's lease and optionally sets its class. -/
  | nlease (a : BitVec 6) (n : BitVec 3)
  /-- NREF_INC (R308). Adds a hold to a node. -/
  | nrefInc (n : BitVec 3)
  /-- NREF_DEC (R308). Removes a hold from a node. -/
  | nrefDec (n : BitVec 3)
  /-- NXL (R309). Makes a handle onto one element or the token words of a node's block. -/
  | nxl (h : BitVec 4) (a : BitVec 6) (b : BitVec 6) (n : BitVec 3)
  /-- NFETCH (R313). Starts replication of a REMOTE stub from a holder, with a completion token. -/
  | nfetch (d : BitVec 6) (n : BitVec 3)
  /-- NOPEN (R302). Allocates an OPEN child node under a sealed parent or a root. -/
  | nopen (d : BitVec 3) (p : BitVec 3)
  /-- NDROP (R307). Empties a node register, freeing an OPEN node of this unit. -/
  | ndrop (n : BitVec 3)
  /-- CRR (R135). Reads a control register into s[d]. -/
  | crr (d : BitVec 6) (c : BitVec 12)
  /-- CRW (R135). Writes s[a] to a control register, field by field under each field's access code. -/
  | crw (a : BitVec 6) (c : BitVec 12)
  /-- TRAP (R408). Raises the fault TRAP with a code, or calls another firmware service. -/
  | trap (c : BitVec 12)
  /-- TRAP_HARVEST_SERVICE (R238). Level-1 firmware service that checks and runs a harvest command. -/
  | trapHarvestService
  /-- TRAP_PAGE_ANSWER_SERVICE (R411). Level-1 firmware service that answers a page request. -/
  | trapPageAnswerService
  /-- ERET (R408). Returns from a trap handler, optionally flushing the queued wide operations. -/
  | eret
  /-- PATCH_WORD (R103). Issues a stored template, optionally amended, into its wide queue. -/
  | patchWord (t : BitVec 6) (m : BitVec 1) (f : BitVec 3) (k : BitVec 4) (v : BitVec 16)
  /-- TLD (R254). Loads a tile's raw bytes from the scratchpad. -/
  | tld (cl : Nat)
  /-- VLD (R255). Loads 64 elements from a bank into a vector, widening them. -/
  | vld (cl : Nat)
  /-- VLDG (R256). Gathers elements of one bank into a vector. -/
  | vldg (cl : Nat)
  /-- SPCPY (R257). Copies and converts elements between scratchpad banks. -/
  | spcpy (cl : Nat)
  /-- CPY (R283). Copies strided memory rows into the scratchpad stream. -/
  | cpy (cl : Nat)
  /-- CPYG (R283). Gathers indexed memory rows into the scratchpad stream. -/
  | cpyg (cl : Nat)
  /-- CPYR (R287). Resumes a faulted copy from its recorded progress. -/
  | cpyr (cl : Nat)
  /-- CPYN (R304). Copies KV data from a node chain into the scratchpad. -/
  | cpyn (cl : Nat)
  /-- TABLD (R221). Loads a codebook table slot from the scratchpad. -/
  | tabld (cl : Nat)
  /-- GLOAD (R326). Checks a grammar header and binds the section to the bank. -/
  | gload (cl : Nat)
  /-- VADDF (R185). Lane-wise FP32 addition. -/
  | vaddf (cl : Nat)
  /-- VSUBF (R185). Lane-wise FP32 subtraction. -/
  | vsubf (cl : Nat)
  /-- VMULF (R185). Lane-wise FP32 multiplication. -/
  | vmulf (cl : Nat)
  /-- VFMAF (R185). Lane-wise fused multiply-add with one rounding. -/
  | vfmaf (cl : Nat)
  /-- VMINF (R186). Lane-wise FP32 minimum. -/
  | vminf (cl : Nat)
  /-- VMAXF (R186). Lane-wise FP32 maximum. -/
  | vmaxf (cl : Nat)
  /-- VSGNF (R186). Lane-wise sign replacement. -/
  | vsgnf (cl : Nat)
  /-- VEXP2 (R187). Lane-wise correctly rounded 2^x. -/
  | vexp2 (cl : Nat)
  /-- VLOG2 (R187). Lane-wise correctly rounded log2 x. -/
  | vlog2 (cl : Nat)
  /-- VRCP (R187). Lane-wise correctly rounded reciprocal. -/
  | vrcp (cl : Nat)
  /-- VRSQRT (R187). Lane-wise correctly rounded reciprocal square root. -/
  | vrsqrt (cl : Nat)
  /-- VCVT (R188). Lane-wise conversion of the selected kind. -/
  | vcvt (cl : Nat)
  /-- VCMPF (R189). Lane-wise FP32 comparison into a predicate. -/
  | vcmpf (cl : Nat)
  /-- VSEL (R190). Lane-wise selection under a predicate. -/
  | vsel (cl : Nat)
  /-- VADDI (R191). Lane-wise INT32 addition, wrapping or saturating. -/
  | vaddi (cl : Nat)
  /-- VSUBI (R191). Lane-wise INT32 subtraction. -/
  | vsubi (cl : Nat)
  /-- VMULI (R191). Lane-wise INT32 multiplication. -/
  | vmuli (cl : Nat)
  /-- VAND (R191). Lane-wise AND. -/
  | vand (cl : Nat)
  /-- VOR (R191). Lane-wise OR. -/
  | vor (cl : Nat)
  /-- VXOR (R191). Lane-wise XOR. -/
  | vxor (cl : Nat)
  /-- VSHL (R191). Lane-wise left shift. -/
  | vshl (cl : Nat)
  /-- VSHR (R191). Lane-wise logical right shift. -/
  | vshr (cl : Nat)
  /-- VSAR (R191). Lane-wise arithmetic right shift. -/
  | vsar (cl : Nat)
  /-- VMINI (R191). Lane-wise integer minimum. -/
  | vmini (cl : Nat)
  /-- VMAXI (R191). Lane-wise integer maximum. -/
  | vmaxi (cl : Nat)
  /-- VCMPI (R192). Lane-wise integer comparison into a predicate. -/
  | vcmpi (cl : Nat)
  /-- VBCAST (R193). Broadcasts a value or a selected lane. -/
  | vbcast (cl : Nat)
  /-- VIOTA (R193). Writes base plus lane times step. -/
  | viota (cl : Nat)
  /-- VPERM (R193). Permutes lanes from two sources by index. -/
  | vperm (cl : Nat)
  /-- VREDSUM (R195). Sums the active lanes over a fixed tree. -/
  | vredsum (cl : Nat)
  /-- VREDMAX (R196). Selects the maximum of the active lanes. -/
  | vredmax (cl : Nat)
  /-- VARGMAX (R196). Selects the maximum and its index. -/
  | vargmax (cl : Nat)
  /-- VTOPK (R197). Lists the k highest active lanes with their indices. -/
  | vtopk (cl : Nat)
  /-- VPOPC (R198). Counts the set bits of a predicate under the governing predicate. -/
  | vpopc (cl : Nat)
  /-- VMOVS (R200). Pushes one lane to a queue register. -/
  | vmovs (cl : Nat)
  /-- VSCAN (R199). Forms an inclusive prefix sum in lane order. -/
  | vscan (cl : Nat)
  /-- PLOG (R201). Combines two predicates by a truth table. -/
  | plog (cl : Nat)
  /-- MMA (R223). Vat multiply of two tiles into the accumulator, under the lease. -/
  | mma (cl : Nat)
  /-- MMAS (R223). Scaled Vat multiply with per-block scale tiles. -/
  | mmas (cl : Nat)
  /-- ACLR (R224). Clears an accumulator or one quadrant of it. -/
  | aclr (cl : Nat)
  /-- ARD (R224). Reads an accumulator rectangle into a tile, converting. -/
  | ard (cl : Nat)
  /-- TXP (R225). Transposes a tile. -/
  | txp (cl : Nat)
  /-- TABSEL (R225). Recodes a C4 tile into another table. -/
  | tabsel (cl : Nat)
  /-- AWR (R224). Writes a tile into an accumulator rectangle. -/
  | awr (cl : Nat)
  /-- GMV (R328). Evaluates the bound grammar section for up to 8 input vectors. -/
  | gmv (cl : Nat)
  /-- GRVF (R330). Reads 64 rule values of one vector from the RVF. -/
  | grvf (cl : Nat)
  /-- TST (R254). Stores a tile's raw bytes to the scratchpad. -/
  | tst (cl : Nat)
  /-- VST (R255). Stores the active lanes to a bank, converting. -/
  | vst (cl : Nat)
  /-- VSTS (R256). Scatters the active lanes into one bank. -/
  | vsts (cl : Nat)
  /-- CPYO (R283). Copies the scratchpad stream out to strided memory rows. -/
  | cpyo (cl : Nat)
  /-- CPYS (R283). Scatters the scratchpad stream to indexed memory rows. -/
  | cpys (cl : Nat)
  /-- ARDST (R224). Stores an accumulator rectangle to the scratchpad, converting. -/
  | ardst (cl : Nat)
  /-- CPYNW (R304). Writes KV data from the scratchpad into an OPEN node's pages. -/
  | cpynw (cl : Nat)
  /-- WIDE_OPERATION_COMPLETE (R108). A wide operation completes, making its writes visible, signalling its tokens and writing its completion token. -/
  | wideOperationComplete (cl : Nat) (q : QueueName)
  /-- VAT_ARBITRATION (R211). The Vat picks the next requester in cyclic order when it becomes free. -/
  | vatArbitration (core : Nat)
  /-- VAT_GRANT (R211). The lease is granted 4 cycles after arbitration. -/
  | vatGrant (core : Nat)
  /-- VAT_OCCUPANCY_END (R214). A Vat command's occupancy of the array ends, which may end the lease. -/
  | vatOccupancyEnd (core : Nat)
  /-- LEASE_TIMEOUT (R212). A lease reaches grant plus 8,192 cycles and ends. -/
  | leaseTimeout (core : Nat)
  /-- VAT_COMMAND_COMPLETE (R214). A Vat command completes 32 cycles after its occupancy, writing the accumulator. -/
  | vatCommandComplete (core : Nat)
  /-- VAT_POWER_DOWN (R226). The array powers down after idle cycles without an occupancy. -/
  | vatPowerDown (core : Nat)
  /-- TRANSLATION_WINDOW_END (R233). At cycle 32 after XLATE the handle becomes VALID, FAULT or PENDING. -/
  | translationWindowEnd (bank : Nat) (h : Nat)
  /-- PAGE_WALK_COMPLETE (R233). A PENDING walk ends, setting the accessed bit and leaving the handle VALID or FAULT. -/
  | pageWalkComplete (bank : Nat) (h : Nat)
  /-- PACKET_HOME_WRITE (R276). The home performs a packet write as a read-modify-write of the line. -/
  | packetHomeWrite (cl : Nat) (tag : Nat)
  /-- PACKET_REPLY (R276). A packet read reply writes its destination and frees the tag. -/
  | packetReply (cl : Nat) (tag : Nat)
  /-- FLADD_PERFORM (R399). A posted FLADD is performed at its Crock. -/
  | fladdPerform (bank : Nat)
  /-- MWAIT_WAKE (R396). A write to the monitored line ends MWAIT with status 0. -/
  | mwaitWake (bank : Nat)
  /-- MWAIT_TIMEOUT (R396). The MWAIT time limit expires and it ends with status 1. -/
  | mwaitTimeout (bank : Nat)
  /-- FLWAIT_WAKE (R399). A write to the flag word is re-read and may end the FLWAIT. -/
  | flwaitWake (bank : Nat)
  /-- LOOPM_FLAG_WAKE (R143). The LOOPM flag becomes nonzero, and the count is read and the loop armed. -/
  | loopmFlagWake (bank : Nat)
  /-- QUEUE_REGISTER_WAKE (R144). A stalled QPUSH or QPOP proceeds when an entry leaves or arrives. -/
  | queueRegisterWake (bank : Nat)
  /-- RING_WAIT_WAKE (R397). A waiting ring instruction proceeds when its ring condition holds. -/
  | ringWaitWake (bank : Nat)
  /-- JOIN_REFORM (R148). The last member arrives at a gang sync bit and the unit re-forms. -/
  | joinReform (bank : Nat) (g : Nat)
  /-- DRAIN_COMPLETE (R400). Every marker has retired and the writes are performed, so the drain sets its core flag. -/
  | drainComplete (core : Nat) (k : Nat)
  /-- PLACE (R76). A core's placer examines the partition's order and starts or reserves records. -/
  | place (core : Nat)
  /-- VICTIM_DISCARD (R81). A victim is discarded at its next instruction boundary and its record re-queued. -/
  | victimDiscard (bank : Nat)
  /-- CANCEL_DISCARD (R85). A cancel that reaches a running uncommitted unit discards it without re-queue. -/
  | cancelDiscard (bank : Nat)
  /-- COMMIT_BUDGET (R83). A committed unit's budget expires and makes COMMIT_BUDGET pending. -/
  | commitBudget (bank : Nat)
  /-- WATCHDOG (R416). A bank stalled for the limit makes WATCHDOG pending. -/
  | watchdog (bank : Nat)
  /-- TAKE_PENDING_TRAP (R405). A bank at an instruction boundary takes its next pending trap or fault. -/
  | takePendingTrap (bank : Nat)
  /-- PAGE_FAULT_DRAIN (R259). A page fault of bank A drains the cluster and switches it to bank B. -/
  | pageFaultDrain (cl : Nat)
  /-- BANK_A_RESUME (R260). Bank A resumes once its fault is answered and bank B reaches a scheduling point. -/
  | bankAResume (cl : Nat)
  /-- PAGE_REQUEST_TIMEOUT (R411). An unanswered page request is answered FAIL after page_limit ticks. -/
  | pageRequestTimeout (p : Nat) (id : Nat)
  /-- NFETCH_COMPLETE (R313). Replication of a REMOTE stub ends and the status word is written. -/
  | nfetchComplete (bank : Nat) (reply : Option RemoteNode)
  /-- FORWARDED_READ (R315). A peer's read of a sealed node's pages is forwarded to a holder, which accepts or refuses it. -/
  | forwardedRead (name : BitVec 128)
  /-- REMOTE_PROBE (R314). A home device answers a probe for a name from its directory entry. -/
  | remoteProbe (name : BitVec 128)
  /-- HOLDER_REGISTRATION (R314). A home device registers or unregisters a holder of a name. -/
  | holderRegistration (add : Bool) (device : Nat) (entry : NameKey)
  /-- PEER_MEMORY_REQUEST (R361). A read of n bytes, an atomic on them (R386), or a store with a tag for each 8-byte word from the first on
  (R34), synchronising or not. An access from a peer device to this device's memory is performed or refused. -/
  | peerMemoryRequest (pa : Nat) (n : Nat) (req : PeerRequest)
  /-- CHURN_CAPTURE (R345). A capture or check reaches the Churn and its samples enter the buffer. -/
  | churnCapture (die : Nat)
  /-- PATROL_SCRUB (R275). The patrol scrubber reads a live line and corrects or poisons it. -/
  | patrolScrub (line : Nat)
  /-- HOST_MEMORY_WRITE (R362). A host, CXL or BMC write into device memory is performed or discarded and logged. -/
  | hostMemoryWrite (pa : Nat) (bytes : List (BitVec 8))
  /-- JOB_RING_NOTIFY (R68). A host write to the notify line makes the device read and take up new job records. -/
  | jobRingNotify (slot : Nat)
  /-- CLAIM (R54). A master claims ownership of an unowned device. -/
  | claim (m : Master)
  /-- RELEASE (R54). The owner releases ownership. -/
  | release (m : Master)
  /-- HEARTBEAT (R54). The owner resets its heartbeat age. -/
  | heartbeat (m : Master)
  /-- HANDOVER (R54). The owner offers ownership to another present master. -/
  | handover (m : Master) (target : BitVec 4)
  /-- ACCEPT (R54). The offered master accepts ownership. -/
  | accept (m : Master)
  /-- OWNERSHIP_LAPSE (R54). The heartbeat age reaches 10,000 ms and ownership lapses. -/
  | ownershipLapse
  /-- CREATE (R62). Makes a partition live with its staged settings and binds its VF. -/
  | partCreate (m : Master) (w : BitVec 64)
  /-- DESTROY (R62). Ends a partition, unbinds its VF and drops its tier nodes. -/
  | partDestroy (m : Master) (w : BitVec 64)
  /-- MOVE_ISLAND (R63). Moves an island between partitions, draining, zeroing and flushing it. -/
  | moveIsland (m : Master) (w : BitVec 64)
  /-- MOVE_GROUP (R64). Moves a channel group, evicting nodes, revoking translations and flushing it. -/
  | moveGroup (m : Master) (w : BitVec 64)
  /-- APPLY (R62). Applies a partition's staged descriptor fields. -/
  | partApply (m : Master) (w : BitVec 64)
  /-- PART_CMD_COMPLETE (R60). A partition command ends, clearing busy, setting the status and notifying. -/
  | partCmdComplete
  /-- MANAGEMENT_REGISTER_WRITE (R52). A write to a management register with no row of its own, refused for non-owners. -/
  | managementRegisterWrite (m : Master) (off : Nat) (w : BitVec 64)
  /-- REFUSED_WRITES_READ (R53). A read of refused_writes returns its count and clears it. -/
  | refusedWritesRead (m : Master)
  /-- PWR_DOM_REQ (R423). A write of a domain's req field requests AUTO, RUN or OFF. -/
  | pwrDomReq (m : Master) (i : Nat) (req : BitVec 2)
  /-- HARVEST (R238). ORs a page's written records into its leaf's dirty bit. -/
  | harvest (w : BitVec 64)
  /-- REVOKE (R238). Bumps a leaf's generation, invalidates its handles and drops cached leaves. -/
  | revoke (w : BitVec 64)
  /-- REVOKE_ALL (R238). Revokes every page of an asid. -/
  | revokeAll (w : BitVec 64)
  /-- SP_FAILED_WRITE (R248). Marks or unmarks a failed scratchpad bank; clearing a fail bit starts a rebuild. -/
  | spFailedWrite (core : Nat) (w : BitVec 64)
  /-- SCRATCHPAD_REBUILD_DONE (R248). A bank rebuild ends and its fail bit reads 0. -/
  | scratchpadRebuildDone (core : Nat) (which : Bool)
  /-- VAT_IDLE_WRITE (R226). A CRW of vat_idle sets the idle limit and restarts the idle count. -/
  | vatIdleWrite (core : Nat) (w : BitVec 64)
  /-- VF_FLR (R66). A function-level reset of a bound VF cancels its jobs and zeroes its ring counts. -/
  | vfFlr (slot : Nat)
  /-- PF_FLR (R66). A function-level reset of the owning PF acts as RELEASE. -/
  | pfFlr (portB : Bool)
  /-- PAGE_ANSWER_RETRY (R411). A RETRY answer re-walks the handle and lets the waiter resume. -/
  | pageAnswerRetry (p : Nat) (id : Nat)
  /-- PAGE_ANSWER_FAIL (R411). A FAIL answer resumes the waiter, which then raises PAGE as an ordinary fault. -/
  | pageAnswerFail (p : Nat) (id : Nat)
  /-- MCTP_READ (R425). A BMC vendor-defined READ returns 8 bytes of the management block. -/
  | mctpRead (off : Nat)
  /-- MCTP_WRITE (R425). A BMC vendor-defined WRITE writes the management block under R52. -/
  | mctpWrite (off : Nat) (w : BitVec 64)
  /-- GET_ENDPOINT_ID (R425). MCTP control message answered by the device. -/
  | getEndpointId
  /-- SET_ENDPOINT_ID (R425). MCTP control message that sets the endpoint id. -/
  | setEndpointId (eid : BitVec 8)
  /-- GET_MCTP_VERSION_SUPPORT (R425). MCTP control message answered by the device. -/
  | getMctpVersionSupport
  /-- GET_MESSAGE_TYPE_SUPPORT (R425). MCTP control message answered by the device. -/
  | getMessageTypeSupport
  /-- GET_VENDOR_DEFINED_MESSAGE_SUPPORT (R425). MCTP control message answered by the device. -/
  | getVendorDefinedMessageSupport
  /-- GET_VERSION (R427). SPDM request answered by the device. -/
  | getVersion
  /-- GET_CAPABILITIES (R427). SPDM request answered by the device. -/
  | getCapabilities
  /-- NEGOTIATE_ALGORITHMS (R427). SPDM request that negotiates the vendor-defined algorithms. -/
  | negotiateAlgorithms (asym : BitVec 16) (hash : BitVec 16)
  /-- GET_DIGESTS (R427). SPDM request answered by the device. -/
  | getDigests
  /-- GET_CERTIFICATE (R427). SPDM request returning the certificate chain of slot 0. -/
  | getCertificate (slot : Nat)
  /-- CHALLENGE (R427). SPDM challenge signed with the identity key. -/
  | challenge (slot : Nat) (nonce : BitVec 256)
  /-- GET_MEASUREMENTS (R427). SPDM request returning the measurement blocks. -/
  | getMeasurements (block : Nat)
  /-- POWER_ON (R426). Power-on runs the ROM, which verifies and measures the firmware chain. -/
  | powerOn (images : List BootImage)
  /-- THERMAL_THROTTLE (R424). Excess power or 100 °C lowers the island clocks in steps. -/
  | thermalThrottle (watts : Nat) (temps : BitVec 48)
  /-- CLOCK_RESTORE (R424). The cause has cleared for 10 ms, so the clocks rise again. -/
  | clockRestore (watts : Nat) (temps : BitVec 48)
  /-- CRITICAL_SHUTDOWN (R424). 110 °C stops all clusters and removes core power. -/
  | criticalShutdown (temps : BitVec 48)
  /-- ISLAND_CLOCK_GATE (R423). An AUTO island with no work is clock-gated to IDLE. -/
  | islandClockGate (island : Nat)
  /-- BUCKET_REFILL (R65). A partition's token bucket count rises with the timebase until it is above zero, and the request stalled at fabric ingress passes. -/
  | bucketRefill (p : Nat) (which : BucketName)
  /-- HOST_MEMORY_READ (R361). A host read of device memory over CXL.mem, which on a private line makes the home recall the owner's copy before it is performed. -/
  | hostMemoryRead (pa : Nat) (n : Nat)
  /-- HARVEST_COMMAND_DONE (R238). A HARVEST, REVOKE or REVOKE_ALL command ends after its handles are invalidated, accesses complete and cached leaves drop, and busy clears. -/
  | harvestCommandDone
  deriving DecidableEq, Repr

end Sys2Proof
end

