-- ==== Sys2Proof/WellFormed.lean ====
section
/-! DEFINITION. Which values of the fields of a step are not reserved (R98-R102, R112, R128-R129), and which places a step of
another agent can name. -/

namespace Sys2Proof

/-- Control register numbers that R128 lists outside 0x400-0x4FF. -/
def crListedOutsideCaps (n : Nat) : Bool :=
  (n ≤ 0x009) || (0x00B ≤ n && n ≤ 0x011) || (0x100 ≤ n && n ≤ 0x115) || (0x120 ≤ n && n ≤ 0x135)
    || (0x200 ≤ n && n ≤ 0x207) || (n == 0x240) || (n == 0x241) || (0x260 ≤ n && n ≤ 0x264)
    || (0x300 ≤ n && n ≤ 0x307) || (0x310 ≤ n && n ≤ 0x314) || (n == 0x318) || (n == 0x319)
    || (n == 0x320) || (n == 0x321) || (0x800 ≤ n && n ≤ 0x802)

/-- A number CRR and CRW accept at decode (R129): a listed one, or any number of 0x400-0x4FF (R23). -/
def crAccepted (n : Nat) : Bool := crListedOutsideCaps n || (0x400 ≤ n && n ≤ 0x4FF)

/-- Scope codes 6 and 7 are reserved (R358). -/
def scopeOk (c : BitVec 3) : Bool := c.toNat < 6

/-- Levels of CANCEL and CCNT: 1 to 4 (R420). -/
def workLevelOk (l : BitVec 3) : Bool := 1 ≤ l.toNat && l.toNat ≤ 4

/-- The amendment selector of a patch word or WIR (R102): 0b1000 is reserved; 0b0000 requires a zero value field. -/
def fselOk (mode : BitVec 1) (field : BitVec 3) (valueZero : Bool) : Bool :=
  if field = 0#3 then mode == 0#1 && valueZero else true

/-- Whether every field of an instruction holds a value the maps do not reserve, and a step of another agent names a
place that exists: cores 0-191 (R10), cluster indices core x 4 + k, bank indices cluster x 2 + bank. -/
def Instr.wellFormed (i : Instr) : Bool :=
  match i with
  | .mulh _ _ _ m => m != 3#2
  | .cmp _ _ _ c => c.toNat < 6
  | .loop _ l e => l.toNat < 2 && e != 0#12
  | .loopm _ l _ e => l.toNat < 2 && e != 0#12
  | .ldx _ _ _ g z => !(g == 1#1 && z == 3#2)
  | .ldacq _ _ _ g c z => !(g == 1#1 && z == 3#2) && scopeOk c
  | .strel _ _ _ c _ => scopeOk c
  | .xlate h _ _ => h != 0#4
  | .hdrop h => h != 0#4
  | .pkrd _ _ _ m => m != 0#8
  | .pkwr _ _ _ m => m != 0#8
  | .pub _ _ _ c => scopeOk c
  | .aadd _ _ _ _ c _ => scopeOk c
  | .aand _ _ _ _ c _ => scopeOk c
  | .aor _ _ _ _ c _ => scopeOk c
  | .axor _ _ _ _ c _ => scopeOk c
  | .amin _ _ _ _ c _ => scopeOk c
  | .amax _ _ _ _ c _ => scopeOk c
  | .aswp _ _ _ _ c _ => scopeOk c
  | .acas d _ _ _ c _ => scopeOk c && d != 63#6
  | .fenceFull c => scopeOk c
  | .fenceSs c => scopeOk c
  | .fenceLl c => scopeOk c
  | .fenceEngine c => scopeOk c
  | .fladd _ _ _ c _ => scopeOk c
  | .flset _ _ _ c o => scopeOk c && (o == 0#2 || o == 2#2)
  | .flwait _ _ _ c o => scopeOk c && (o == 0#2 || o == 1#2)
  | .gang w => w != 3#2
  | .cancel _ l => workLevelOk l
  | .ccnt _ _ _ l => workLevelOk l
  | .tmpl t _ c => t.toNat + c.toNat + 1 ≤ 64
  | .wir _ a m f _ => fselOk m f (a == 0#6)
  | .vlease _ n => 1 ≤ n.toNat && n.toNat ≤ 64
  | .nxl h _ _ _ => h != 0#4
  | .crr _ c => crAccepted c.toNat
  | .crw _ c => crAccepted c.toNat
  | .trap c => c != 0xFF0#12 && c != 0xFF1#12
  | .patchWord _ m f _ v => fselOk m f (v == 0#16)
  | .add _ _ _ => true
  | .sub _ _ _ => true
  | .mul _ _ _ => true
  | .div _ _ _ _ => true
  | .rem _ _ _ _ => true
  | .and _ _ _ => true
  | .or _ _ _ => true
  | .xor _ _ _ => true
  | .andn _ _ _ => true
  | .shl _ _ _ => true
  | .shr _ _ _ => true
  | .sar _ _ _ => true
  | .ror _ _ _ => true
  | .min _ _ _ _ => true
  | .max _ _ _ _ => true
  | .sel _ _ _ _ => true
  | .clz _ _ => true
  | .ctz _ _ => true
  | .popc _ _ => true
  | .shadd _ _ _ _ => true
  | .bfx _ _ _ _ => true
  | .bfi _ _ _ _ => true
  | .addi _ _ _ => true
  | .andi _ _ _ => true
  | .ori _ _ _ => true
  | .xori _ _ _ => true
  | .shli _ _ _ => true
  | .shri _ _ _ => true
  | .sari _ _ _ => true
  | .muli _ _ _ => true
  | .cmpeqi _ _ _ => true
  | .cmplti _ _ _ => true
  | .cmpltui _ _ _ => true
  | .li _ _ => true
  | .lis _ _ => true
  | .addpc _ _ => true
  | .beq _ _ _ => true
  | .bne _ _ _ => true
  | .blt _ _ _ => true
  | .bge _ _ _ => true
  | .bltu _ _ _ => true
  | .bgeu _ _ _ => true
  | .jmp _ => true
  | .jal _ => true
  | .jr _ _ _ => true
  | .ldb _ _ _ => true
  | .ldbu _ _ _ => true
  | .ldh _ _ _ => true
  | .ldhu _ _ _ => true
  | .ldw _ _ _ => true
  | .ldwu _ _ _ => true
  | .ldd _ _ _ => true
  | .stb _ _ _ => true
  | .sth _ _ _ => true
  | .stw _ _ _ => true
  | .std _ _ _ => true
  | .stx _ _ _ _ => true
  | .ldref _ _ _ => true
  | .stref _ _ _ => true
  | .hinfo _ _ _ => true
  | .stlk _ _ => true
  | .stins _ _ => true
  | .stinv _ => true
  | .pkwt => true
  | .objinit _ _ _ => true
  | .monitor _ _ => true
  | .mwait _ _ => true
  | .rwfree _ _ _ => true
  | .rpost _ _ _ => true
  | .rwfill _ _ _ => true
  | .rfree _ _ _ => true
  | .flsetCoreFlag _ _ => true
  | .flwaitCoreFlag _ _ => true
  | .drain _ _ => true
  | .qpush _ _ => true
  | .qpop _ _ => true
  | .qpoll _ _ => true
  | .fork _ => true
  | .join _ => true
  | .spawn _ _ => true
  | .jdec _ _ => true
  | .commit => true
  | .unitDone => true
  | .yield => true
  | .wmov _ _ => true
  | .wget _ _ => true
  | .vfree => true
  | .axbegin _ => true
  | .axend => true
  | .axinv _ => true
  | .axstat _ _ => true
  | .pfx _ _ _ _ => true
  | .seal _ _ => true
  | .nlease _ _ => true
  | .nrefInc _ => true
  | .nrefDec _ => true
  | .nfetch _ _ => true
  | .nopen _ _ => true
  | .ndrop _ => true
  | .trapHarvestService => true
  | .trapPageAnswerService => true
  | .eret => true
  | .tld cl => decide (cl < 768)
  | .vld cl => decide (cl < 768)
  | .vldg cl => decide (cl < 768)
  | .spcpy cl => decide (cl < 768)
  | .cpy cl => decide (cl < 768)
  | .cpyg cl => decide (cl < 768)
  | .cpyr cl => decide (cl < 768)
  | .cpyn cl => decide (cl < 768)
  | .tabld cl => decide (cl < 768)
  | .gload cl => decide (cl < 768)
  | .vaddf cl => decide (cl < 768)
  | .vsubf cl => decide (cl < 768)
  | .vmulf cl => decide (cl < 768)
  | .vfmaf cl => decide (cl < 768)
  | .vminf cl => decide (cl < 768)
  | .vmaxf cl => decide (cl < 768)
  | .vsgnf cl => decide (cl < 768)
  | .vexp2 cl => decide (cl < 768)
  | .vlog2 cl => decide (cl < 768)
  | .vrcp cl => decide (cl < 768)
  | .vrsqrt cl => decide (cl < 768)
  | .vcvt cl => decide (cl < 768)
  | .vcmpf cl => decide (cl < 768)
  | .vsel cl => decide (cl < 768)
  | .vaddi cl => decide (cl < 768)
  | .vsubi cl => decide (cl < 768)
  | .vmuli cl => decide (cl < 768)
  | .vand cl => decide (cl < 768)
  | .vor cl => decide (cl < 768)
  | .vxor cl => decide (cl < 768)
  | .vshl cl => decide (cl < 768)
  | .vshr cl => decide (cl < 768)
  | .vsar cl => decide (cl < 768)
  | .vmini cl => decide (cl < 768)
  | .vmaxi cl => decide (cl < 768)
  | .vcmpi cl => decide (cl < 768)
  | .vbcast cl => decide (cl < 768)
  | .viota cl => decide (cl < 768)
  | .vperm cl => decide (cl < 768)
  | .vredsum cl => decide (cl < 768)
  | .vredmax cl => decide (cl < 768)
  | .vargmax cl => decide (cl < 768)
  | .vtopk cl => decide (cl < 768)
  | .vpopc cl => decide (cl < 768)
  | .vmovs cl => decide (cl < 768)
  | .vscan cl => decide (cl < 768)
  | .plog cl => decide (cl < 768)
  | .mma cl => decide (cl < 768)
  | .mmas cl => decide (cl < 768)
  | .aclr cl => decide (cl < 768)
  | .ard cl => decide (cl < 768)
  | .txp cl => decide (cl < 768)
  | .tabsel cl => decide (cl < 768)
  | .awr cl => decide (cl < 768)
  | .gmv cl => decide (cl < 768)
  | .grvf cl => decide (cl < 768)
  | .tst cl => decide (cl < 768)
  | .vst cl => decide (cl < 768)
  | .vsts cl => decide (cl < 768)
  | .cpyo cl => decide (cl < 768)
  | .cpys cl => decide (cl < 768)
  | .ardst cl => decide (cl < 768)
  | .cpynw cl => decide (cl < 768)
  | .wideOperationComplete cl _ => decide (cl < 768)
  | .vatArbitration core => decide (core < 192)
  | .vatGrant core => decide (core < 192)
  | .vatOccupancyEnd core => decide (core < 192)
  | .leaseTimeout core => decide (core < 192)
  | .vatCommandComplete core => decide (core < 192)
  | .vatPowerDown core => decide (core < 192)
  | .translationWindowEnd bank h => bank < 1536 && h < 16
  | .pageWalkComplete bank h => bank < 1536 && h < 16
  | .packetHomeWrite cl tag => cl < 768 && tag < 8
  | .packetReply cl tag => cl < 768 && tag < 8
  | .fladdPerform bank => decide (bank < 1536)
  | .mwaitWake bank => decide (bank < 1536)
  | .mwaitTimeout bank => decide (bank < 1536)
  | .flwaitWake bank => decide (bank < 1536)
  | .loopmFlagWake bank => decide (bank < 1536)
  | .queueRegisterWake bank => decide (bank < 1536)
  | .ringWaitWake bank => decide (bank < 1536)
  | .joinReform bank g => bank < 1536 && g < 8
  | .drainComplete core k => core < 192 && k < 64
  | .place core => decide (core < 192)
  | .victimDiscard bank => decide (bank < 1536)
  | .cancelDiscard bank => decide (bank < 1536)
  | .commitBudget bank => decide (bank < 1536)
  | .watchdog bank => decide (bank < 1536)
  | .takePendingTrap bank => decide (bank < 1536)
  | .pageFaultDrain cl => decide (cl < 768)
  | .bankAResume cl => decide (cl < 768)
  | .pageRequestTimeout p _ => decide (p < 16)
  | .nfetchComplete bank _ => decide (bank < 1536)
  | .forwardedRead _ => true
  | .remoteProbe _ => true
  | .holderRegistration _ _ _ => true
  | .peerMemoryRequest _ _ _ => true
  | .churnCapture die => decide (die < 4)
  | .patrolScrub _ => true
  | .hostMemoryWrite _ _ => true
  | .jobRingNotify slot => decide (slot < 32)
  | .claim _ => true
  | .release _ => true
  | .heartbeat _ => true
  | .handover _ _ => true
  | .accept _ => true
  | .ownershipLapse => true
  | .partCreate _ w => w.extractLsb' 0 4 == 1#4
  | .partDestroy _ w => w.extractLsb' 0 4 == 2#4
  | .moveIsland _ w => w.extractLsb' 0 4 == 3#4
  | .moveGroup _ w => w.extractLsb' 0 4 == 4#4
  | .partApply _ w => w.extractLsb' 0 4 == 5#4
  | .partCmdComplete => true
  | .managementRegisterWrite _ _ _ => true
  | .refusedWritesRead _ => true
  | .pwrDomReq _ i _ => decide (i < 18)
  | .harvest w => w.extractLsb' 4 3 == 1#3
  | .revoke w => w.extractLsb' 4 3 == 2#3
  | .revokeAll w => w.extractLsb' 4 3 == 3#3
  | .spFailedWrite core _ => decide (core < 192)
  | .scratchpadRebuildDone core _ => decide (core < 192)
  | .vatIdleWrite core _ => decide (core < 192)
  | .vfFlr slot => decide (slot < 32)
  | .pfFlr _ => true
  | .pageAnswerRetry p _ => decide (p < 16)
  | .pageAnswerFail p _ => decide (p < 16)
  | .mctpRead _ => true
  | .mctpWrite _ _ => true
  | .getEndpointId => true
  | .setEndpointId _ => true
  | .getMctpVersionSupport => true
  | .getMessageTypeSupport => true
  | .getVendorDefinedMessageSupport => true
  | .getVersion => true
  | .getCapabilities => true
  | .negotiateAlgorithms _ _ => true
  | .getDigests => true
  | .getCertificate _ => true
  | .challenge _ _ => true
  | .getMeasurements _ => true
  | .powerOn _ => true
  | .thermalThrottle _ _ => true
  | .clockRestore _ _ => true
  | .criticalShutdown _ => true
  | .islandClockGate island => decide (island < 16)
  | .bucketRefill p _ => decide (p < 16)
  | .hostMemoryRead _ _ => true
  | .harvestCommandDone => true

end Sys2Proof
end

