-- ==== Sys2Proof/Decode.lean ====
section
/-! DEFINITION. Decoding of instruction words (R95-R103, R112) and the encoder written from the same tables. Decoding is
total: a word that is no instruction is rejected by name, and every rejection is ILLEGAL (R112). -/

namespace Sys2Proof

/-- Why a word is no instruction (R112; each is ILLEGAL at decode). -/
inductive Reject where
  /-- the major opcode is reserved, or the bits the maps fix differ from every row of that opcode -/
  | reservedEncoding
  /-- a field holds a value the maps reserve -/
  | reservedValue
  deriving DecidableEq, Repr

/-- Field [lo + n - 1 : lo] of a word. -/
abbrev fld (w : BitVec 32) (lo n : Nat) : BitVec n := w.extractLsb' lo n

/-- Class 0b00: the integer instructions (R98). -/
def rawInteger (w : BitVec 32) : Option Instr :=
  let op := fld w 24 8
  if op = 0x00#8 then if fld w 0 6 == 0#6 then some (.add (fld w 18 6) (fld w 12 6) (fld w 6 6)) else none
  else if op = 0x01#8 then if fld w 0 6 == 0#6 then some (.sub (fld w 18 6) (fld w 12 6) (fld w 6 6)) else none
  else if op = 0x02#8 then if fld w 0 6 == 0#6 then some (.mul (fld w 18 6) (fld w 12 6) (fld w 6 6)) else none
  else if op = 0x03#8 then if fld w 2 4 == 0#4 then some (.mulh (fld w 18 6) (fld w 12 6) (fld w 6 6) (fld w 0 2)) else none
  else if op = 0x04#8 then if fld w 1 5 == 0#5 then some (.div (fld w 18 6) (fld w 12 6) (fld w 6 6) (fld w 0 1)) else none
  else if op = 0x05#8 then if fld w 1 5 == 0#5 then some (.rem (fld w 18 6) (fld w 12 6) (fld w 6 6) (fld w 0 1)) else none
  else if op = 0x06#8 then if fld w 0 6 == 0#6 then some (.and (fld w 18 6) (fld w 12 6) (fld w 6 6)) else none
  else if op = 0x07#8 then if fld w 0 6 == 0#6 then some (.or (fld w 18 6) (fld w 12 6) (fld w 6 6)) else none
  else if op = 0x08#8 then if fld w 0 6 == 0#6 then some (.xor (fld w 18 6) (fld w 12 6) (fld w 6 6)) else none
  else if op = 0x09#8 then if fld w 0 6 == 0#6 then some (.andn (fld w 18 6) (fld w 12 6) (fld w 6 6)) else none
  else if op = 0x0a#8 then if fld w 0 6 == 0#6 then some (.shl (fld w 18 6) (fld w 12 6) (fld w 6 6)) else none
  else if op = 0x0b#8 then if fld w 0 6 == 0#6 then some (.shr (fld w 18 6) (fld w 12 6) (fld w 6 6)) else none
  else if op = 0x0c#8 then if fld w 0 6 == 0#6 then some (.sar (fld w 18 6) (fld w 12 6) (fld w 6 6)) else none
  else if op = 0x0d#8 then if fld w 0 6 == 0#6 then some (.ror (fld w 18 6) (fld w 12 6) (fld w 6 6)) else none
  else if op = 0x0e#8 then if fld w 1 5 == 0#5 then some (.min (fld w 18 6) (fld w 12 6) (fld w 6 6) (fld w 0 1)) else none
  else if op = 0x0f#8 then if fld w 1 5 == 0#5 then some (.max (fld w 18 6) (fld w 12 6) (fld w 6 6) (fld w 0 1)) else none
  else if op = 0x10#8 then if fld w 3 3 == 0#3 then some (.cmp (fld w 18 6) (fld w 12 6) (fld w 6 6) (fld w 0 3)) else none
  else if op = 0x11#8 then some (.sel (fld w 18 6) (fld w 12 6) (fld w 6 6) (fld w 0 6))
  else if op = 0x12#8 then if fld w 0 12 == 0#12 then some (.clz (fld w 18 6) (fld w 12 6)) else none
  else if op = 0x13#8 then if fld w 0 12 == 0#12 then some (.ctz (fld w 18 6) (fld w 12 6)) else none
  else if op = 0x14#8 then if fld w 0 12 == 0#12 then some (.popc (fld w 18 6) (fld w 12 6)) else none
  else if op = 0x15#8 then if fld w 2 4 == 0#4 then some (.shadd (fld w 18 6) (fld w 12 6) (fld w 6 6) (fld w 0 2)) else none
  else if op = 0x16#8 then some (.bfx (fld w 18 6) (fld w 12 6) (fld w 6 6) (fld w 0 6))
  else if op = 0x17#8 then some (.bfi (fld w 18 6) (fld w 12 6) (fld w 6 6) (fld w 0 6))
  else if op = 0x20#8 then some (.addi (fld w 18 6) (fld w 12 6) (fld w 0 12))
  else if op = 0x21#8 then some (.andi (fld w 18 6) (fld w 12 6) (fld w 0 12))
  else if op = 0x22#8 then some (.ori (fld w 18 6) (fld w 12 6) (fld w 0 12))
  else if op = 0x23#8 then some (.xori (fld w 18 6) (fld w 12 6) (fld w 0 12))
  else if op = 0x24#8 then if fld w 6 6 == 0#6 then some (.shli (fld w 18 6) (fld w 12 6) (fld w 0 6)) else none
  else if op = 0x25#8 then if fld w 6 6 == 0#6 then some (.shri (fld w 18 6) (fld w 12 6) (fld w 0 6)) else none
  else if op = 0x26#8 then if fld w 6 6 == 0#6 then some (.sari (fld w 18 6) (fld w 12 6) (fld w 0 6)) else none
  else if op = 0x27#8 then some (.muli (fld w 18 6) (fld w 12 6) (fld w 0 12))
  else if op = 0x28#8 then some (.cmpeqi (fld w 18 6) (fld w 12 6) (fld w 0 12))
  else if op = 0x29#8 then some (.cmplti (fld w 18 6) (fld w 12 6) (fld w 0 12))
  else if op = 0x2a#8 then some (.cmpltui (fld w 18 6) (fld w 12 6) (fld w 0 12))
  else if op = 0x30#8 then some (.li (fld w 18 6) (fld w 0 18))
  else if op = 0x31#8 then some (.lis (fld w 18 6) (fld w 0 18))
  else if op = 0x32#8 then some (.addpc (fld w 18 6) (fld w 0 18))
  else none

/-- Class 0b01: control flow and memory (R99). -/
def rawMemory (w : BitVec 32) : Option Instr :=
  let op := fld w 24 8
  if op = 0x40#8 then some (.beq (fld w 18 6) (fld w 12 6) (fld w 0 12))
  else if op = 0x41#8 then some (.bne (fld w 18 6) (fld w 12 6) (fld w 0 12))
  else if op = 0x42#8 then some (.blt (fld w 18 6) (fld w 12 6) (fld w 0 12))
  else if op = 0x43#8 then some (.bge (fld w 18 6) (fld w 12 6) (fld w 0 12))
  else if op = 0x44#8 then some (.bltu (fld w 18 6) (fld w 12 6) (fld w 0 12))
  else if op = 0x45#8 then some (.bgeu (fld w 18 6) (fld w 12 6) (fld w 0 12))
  else if op = 0x46#8 then some (.jmp (fld w 0 24))
  else if op = 0x47#8 then some (.jal (fld w 0 24))
  else if op = 0x48#8 then some (.jr (fld w 18 6) (fld w 12 6) (fld w 0 12))
  else if op = 0x49#8 then if fld w 12 4 == 0#4 then some (.loop (fld w 18 6) (fld w 16 2) (fld w 0 12)) else none
  else if op = 0x4a#8 then some (.loopm (fld w 20 4) (fld w 18 2) (fld w 12 6) (fld w 0 12))
  else if op = 0x50#8 then some (.ldb (fld w 18 6) (fld w 14 4) (fld w 0 14))
  else if op = 0x51#8 then some (.ldbu (fld w 18 6) (fld w 14 4) (fld w 0 14))
  else if op = 0x52#8 then some (.ldh (fld w 18 6) (fld w 14 4) (fld w 0 14))
  else if op = 0x53#8 then some (.ldhu (fld w 18 6) (fld w 14 4) (fld w 0 14))
  else if op = 0x54#8 then some (.ldw (fld w 18 6) (fld w 14 4) (fld w 0 14))
  else if op = 0x55#8 then some (.ldwu (fld w 18 6) (fld w 14 4) (fld w 0 14))
  else if op = 0x56#8 then some (.ldd (fld w 18 6) (fld w 14 4) (fld w 0 14))
  else if op = 0x57#8 then some (.stb (fld w 18 6) (fld w 14 4) (fld w 0 14))
  else if op = 0x58#8 then some (.sth (fld w 18 6) (fld w 14 4) (fld w 0 14))
  else if op = 0x59#8 then some (.stw (fld w 18 6) (fld w 14 4) (fld w 0 14))
  else if op = 0x5a#8 then some (.std (fld w 18 6) (fld w 14 4) (fld w 0 14))
  else if op = 0x5b#8 then if fld w 3 5 == 0#5 then some (.ldx (fld w 18 6) (fld w 14 4) (fld w 8 6) (fld w 2 1) (fld w 0 2)) else none
  else if op = 0x5c#8 then if fld w 2 6 == 0#6 then some (.stx (fld w 18 6) (fld w 14 4) (fld w 8 6) (fld w 0 2)) else none
  else if op = 0x5d#8 then some (.ldref (fld w 18 6) (fld w 14 4) (fld w 0 14))
  else if op = 0x5e#8 then some (.stref (fld w 18 6) (fld w 14 4) (fld w 0 14))
  else if op = 0x5f#8 then if fld w 6 2 == 0#2 then some (.ldacq (fld w 18 6) (fld w 14 4) (fld w 8 6) (fld w 5 1) (fld w 2 3) (fld w 0 2)) else none
  else if op = 0x60#8 then if fld w 5 3 == 0#3 then some (.strel (fld w 18 6) (fld w 14 4) (fld w 8 6) (fld w 2 3) (fld w 0 2)) else none
  else if op = 0x61#8 then if fld w 22 2 == 0#2 && fld w 1 11 == 0#11 then some (.xlate (fld w 18 4) (fld w 12 6) (fld w 0 1)) else none
  else if op = 0x62#8 then if fld w 16 2 == 0#2 && fld w 2 10 == 0#10 then some (.hinfo (fld w 18 6) (fld w 12 4) (fld w 0 2)) else none
  else if op = 0x63#8 then if fld w 16 8 == 0#8 && fld w 0 12 == 0#12 then some (.hdrop (fld w 12 4)) else none
  else if op = 0x64#8 then if fld w 0 12 == 0#12 then some (.stlk (fld w 18 6) (fld w 12 6)) else none
  else if op = 0x65#8 then if fld w 18 6 == 0#6 && fld w 0 6 == 0#6 then some (.stins (fld w 12 6) (fld w 6 6)) else none
  else if op = 0x66#8 then if fld w 18 6 == 0#6 && fld w 0 12 == 0#12 then some (.stinv (fld w 12 6)) else none
  else if op = 0x68#8 then some (.pkrd (fld w 18 6) (fld w 14 4) (fld w 8 6) (fld w 0 8))
  else if op = 0x69#8 then some (.pkwr (fld w 18 6) (fld w 14 4) (fld w 8 6) (fld w 0 8))
  else if op = 0x6a#8 then if fld w 0 24 == 0#24 then some .pkwt else none
  else if op = 0x6c#8 then some (.objinit (fld w 18 6) (fld w 14 4) (fld w 0 14))
  else if op = 0x6d#8 then if fld w 5 3 == 0#3 && fld w 0 2 == 0#2 then some (.pub (fld w 18 6) (fld w 14 4) (fld w 8 6) (fld w 2 3)) else none
  else none

/-- Class 0b10: synchronisation, scheduling, engines and system (R100). -/
def rawSystem (w : BitVec 32) : Option Instr :=
  let op := fld w 24 8
  if op = 0x80#8 then if fld w 6 2 == 0#2 then some (.aadd (fld w 18 6) (fld w 14 4) (fld w 8 6) (fld w 5 1) (fld w 2 3) (fld w 0 2)) else none
  else if op = 0x81#8 then if fld w 6 2 == 0#2 then some (.aand (fld w 18 6) (fld w 14 4) (fld w 8 6) (fld w 5 1) (fld w 2 3) (fld w 0 2)) else none
  else if op = 0x82#8 then if fld w 6 2 == 0#2 then some (.aor (fld w 18 6) (fld w 14 4) (fld w 8 6) (fld w 5 1) (fld w 2 3) (fld w 0 2)) else none
  else if op = 0x83#8 then if fld w 6 2 == 0#2 then some (.axor (fld w 18 6) (fld w 14 4) (fld w 8 6) (fld w 5 1) (fld w 2 3) (fld w 0 2)) else none
  else if op = 0x84#8 then if fld w 6 2 == 0#2 then some (.amin (fld w 18 6) (fld w 14 4) (fld w 8 6) (fld w 5 1) (fld w 2 3) (fld w 0 2)) else none
  else if op = 0x85#8 then if fld w 6 2 == 0#2 then some (.amax (fld w 18 6) (fld w 14 4) (fld w 8 6) (fld w 5 1) (fld w 2 3) (fld w 0 2)) else none
  else if op = 0x86#8 then if fld w 6 2 == 0#2 then some (.aswp (fld w 18 6) (fld w 14 4) (fld w 8 6) (fld w 5 1) (fld w 2 3) (fld w 0 2)) else none
  else if op = 0x87#8 then if fld w 6 2 == 0#2 then some (.acas (fld w 18 6) (fld w 14 4) (fld w 8 6) (fld w 5 1) (fld w 2 3) (fld w 0 2)) else none
  else if op = 0x88#8 then if fld w 5 19 == 0#19 && fld w 0 2 == 0#2 then some (.fenceFull (fld w 2 3)) else if fld w 5 19 == 0#19 && fld w 0 2 == 1#2 then some (.fenceSs (fld w 2 3)) else if fld w 5 19 == 0#19 && fld w 0 2 == 2#2 then some (.fenceLl (fld w 2 3)) else if fld w 5 19 == 0#19 && fld w 0 2 == 3#2 then some (.fenceEngine (fld w 2 3)) else none
  else if op = 0x89#8 then if fld w 18 6 == 0#6 then some (.monitor (fld w 14 4) (fld w 0 14)) else none
  else if op = 0x8a#8 then if fld w 0 12 == 0#12 then some (.mwait (fld w 18 6) (fld w 12 6)) else none
  else if op = 0x8c#8 then some (.rwfree (fld w 18 6) (fld w 14 4) (fld w 0 14))
  else if op = 0x8d#8 then some (.rpost (fld w 18 6) (fld w 14 4) (fld w 0 14))
  else if op = 0x8e#8 then some (.rwfill (fld w 18 6) (fld w 14 4) (fld w 0 14))
  else if op = 0x8f#8 then some (.rfree (fld w 18 6) (fld w 14 4) (fld w 0 14))
  else if op = 0x90#8 then if fld w 5 3 == 0#3 then some (.fladd (fld w 18 6) (fld w 14 4) (fld w 8 6) (fld w 2 3) (fld w 0 2)) else none
  else if op = 0x91#8 then if fld w 14 4 == 0#4 && fld w 0 8 == 128#8 then some (.flsetCoreFlag (fld w 18 6) (fld w 8 6)) else if fld w 5 3 == 0#3 then some (.flset (fld w 18 6) (fld w 14 4) (fld w 8 6) (fld w 2 3) (fld w 0 2)) else none
  else if op = 0x92#8 then if fld w 14 4 == 0#4 && fld w 0 8 == 128#8 then some (.flwaitCoreFlag (fld w 18 6) (fld w 8 6)) else if fld w 5 3 == 0#3 then some (.flwait (fld w 18 6) (fld w 14 4) (fld w 8 6) (fld w 2 3) (fld w 0 2)) else none
  else if op = 0x93#8 then if fld w 18 6 == 0#6 && fld w 6 6 == 0#6 then some (.drain (fld w 12 6) (fld w 0 6)) else none
  else if op = 0x94#8 then if fld w 18 6 == 0#6 && fld w 3 9 == 0#9 then some (.qpush (fld w 12 6) (fld w 0 3)) else none
  else if op = 0x95#8 then if fld w 3 15 == 0#15 then some (.qpop (fld w 18 6) (fld w 0 3)) else none
  else if op = 0x96#8 then if fld w 3 15 == 0#15 then some (.qpoll (fld w 18 6) (fld w 0 3)) else none
  else if op = 0x98#8 then if fld w 2 22 == 0#22 then some (.gang (fld w 0 2)) else none
  else if op = 0x99#8 then if fld w 18 6 == 0#6 && fld w 0 12 == 0#12 then some (.fork (fld w 12 6)) else none
  else if op = 0x9a#8 then if fld w 3 21 == 0#21 then some (.join (fld w 0 3)) else none
  else if op = 0xa0#8 then if fld w 18 6 == 0#6 then some (.spawn (fld w 14 4) (fld w 0 14)) else none
  else if op = 0xa1#8 then if fld w 18 6 == 0#6 then some (.jdec (fld w 14 4) (fld w 0 14)) else none
  else if op = 0xa2#8 then if fld w 0 24 == 0#24 then some .commit else none
  else if op = 0xa3#8 then if fld w 0 24 == 0#24 then some .unitDone else none
  else if op = 0xa4#8 then if fld w 0 24 == 0#24 then some .yield else none
  else if op = 0xa5#8 then if fld w 18 6 == 0#6 && fld w 3 9 == 0#9 then some (.cancel (fld w 12 6) (fld w 0 3)) else none
  else if op = 0xa6#8 then if fld w 4 8 == 0#8 then some (.ccnt (fld w 18 6) (fld w 12 6) (fld w 3 1) (fld w 0 3)) else none
  else if op = 0xa8#8 then if fld w 6 6 == 0#6 then some (.tmpl (fld w 18 6) (fld w 12 6) (fld w 0 6)) else none
  else if op = 0xa9#8 then if fld w 0 4 == 0#4 then some (.wir (fld w 18 6) (fld w 12 6) (fld w 11 1) (fld w 8 3) (fld w 4 4)) else none
  else if op = 0xaa#8 then if fld w 21 3 == 0#3 && fld w 0 12 == 0#12 then some (.wmov (fld w 18 3) (fld w 12 6)) else none
  else if op = 0xab#8 then if fld w 15 3 == 0#3 && fld w 0 12 == 0#12 then some (.wget (fld w 18 6) (fld w 12 3)) else none
  else if op = 0xac#8 then if fld w 7 11 == 0#11 then some (.vlease (fld w 18 6) (fld w 0 7)) else none
  else if op = 0xad#8 then if fld w 0 24 == 0#24 then some .vfree else none
  else if op = 0xb0#8 then some (.axbegin (fld w 0 24))
  else if op = 0xb1#8 then if fld w 0 24 == 0#24 then some .axend else none
  else if op = 0xb2#8 then if fld w 18 6 == 0#6 && fld w 0 12 == 0#12 then some (.axinv (fld w 12 6)) else none
  else if op = 0xb3#8 then if fld w 0 12 == 0#12 then some (.axstat (fld w 18 6) (fld w 12 6)) else none
  else if op = 0xb4#8 then if fld w 21 3 == 0#3 && fld w 1 5 == 0#5 then some (.pfx (fld w 18 3) (fld w 12 6) (fld w 6 6) (fld w 0 1)) else none
  else if op = 0xb5#8 then if fld w 21 3 == 0#3 && fld w 3 15 == 0#15 then some (.seal (fld w 18 3) (fld w 0 3)) else none
  else if op = 0xb6#8 then if fld w 18 6 == 0#6 && fld w 3 9 == 0#9 then some (.nlease (fld w 12 6) (fld w 0 3)) else none
  else if op = 0xb7#8 then if fld w 3 21 == 0#21 then some (.nrefInc (fld w 0 3)) else if fld w 3 21 == 1#21 then some (.nrefDec (fld w 0 3)) else none
  else if op = 0xb8#8 then if fld w 22 2 == 0#2 && fld w 3 3 == 0#3 then some (.nxl (fld w 18 4) (fld w 12 6) (fld w 6 6) (fld w 0 3)) else none
  else if op = 0xb9#8 then if fld w 3 15 == 0#15 then some (.nfetch (fld w 18 6) (fld w 0 3)) else none
  else if op = 0xba#8 then if fld w 21 3 == 0#3 && fld w 3 15 == 0#15 then some (.nopen (fld w 18 3) (fld w 0 3)) else none
  else if op = 0xbb#8 then if fld w 3 21 == 0#21 then some (.ndrop (fld w 0 3)) else none
  else if op = 0xbc#8 then if fld w 12 6 == 0#6 then some (.crr (fld w 18 6) (fld w 0 12)) else none
  else if op = 0xbd#8 then if fld w 18 6 == 0#6 then some (.crw (fld w 12 6) (fld w 0 12)) else none
  else if op = 0xbe#8 then if fld w 0 24 == 4080#24 then some .trapHarvestService else if fld w 0 24 == 4081#24 then some .trapPageAnswerService else if fld w 12 12 == 0#12 then some (.trap (fld w 0 12)) else none
  else if op = 0xbf#8 then if fld w 0 24 == 0#24 then some .eret else none
  else none

/-- A word by its class [31:30] (R95); class 0b11 is the patch word (R102). -/
def rawDecode (w : BitVec 32) : Option Instr :=
  let cls := fld w 30 2
  if cls = 0#2 then rawInteger w
  else if cls = 1#2 then rawMemory w
  else if cls = 2#2 then rawSystem w
  else some (.patchWord (fld w 24 6) (fld w 23 1) (fld w 20 3) (fld w 16 4) (fld w 0 16))

/-- Decoding (R112): the encoding is matched first, then the reserved values of the maps are refused. -/
def decode (w : BitVec 32) : Except Reject Instr :=
  match rawDecode w with
  | none => .error .reservedEncoding
  | some i => if i.wellFormed then .ok i else .error .reservedValue

/-- The word of an instruction, from the forms of R96 and the maps of R98-R102; none for a step that is no word. -/
def encode (i : Instr) : Option (BitVec 32) :=
  match i with
  | .add d a b => some (0#8 ++ d ++ a ++ b ++ 0#6)
  | .sub d a b => some (1#8 ++ d ++ a ++ b ++ 0#6)
  | .mul d a b => some (2#8 ++ d ++ a ++ b ++ 0#6)
  | .mulh d a b m => some (3#8 ++ d ++ a ++ b ++ 0#4 ++ m)
  | .div d a b u => some (4#8 ++ d ++ a ++ b ++ 0#5 ++ u)
  | .rem d a b u => some (5#8 ++ d ++ a ++ b ++ 0#5 ++ u)
  | .and d a b => some (6#8 ++ d ++ a ++ b ++ 0#6)
  | .or d a b => some (7#8 ++ d ++ a ++ b ++ 0#6)
  | .xor d a b => some (8#8 ++ d ++ a ++ b ++ 0#6)
  | .andn d a b => some (9#8 ++ d ++ a ++ b ++ 0#6)
  | .shl d a b => some (10#8 ++ d ++ a ++ b ++ 0#6)
  | .shr d a b => some (11#8 ++ d ++ a ++ b ++ 0#6)
  | .sar d a b => some (12#8 ++ d ++ a ++ b ++ 0#6)
  | .ror d a b => some (13#8 ++ d ++ a ++ b ++ 0#6)
  | .min d a b u => some (14#8 ++ d ++ a ++ b ++ 0#5 ++ u)
  | .max d a b u => some (15#8 ++ d ++ a ++ b ++ 0#5 ++ u)
  | .cmp d a b c => some (16#8 ++ d ++ a ++ b ++ 0#3 ++ c)
  | .sel d a b c => some (17#8 ++ d ++ a ++ b ++ c)
  | .clz d a => some (18#8 ++ d ++ a ++ 0#12)
  | .ctz d a => some (19#8 ++ d ++ a ++ 0#12)
  | .popc d a => some (20#8 ++ d ++ a ++ 0#12)
  | .shadd d a b k => some (21#8 ++ d ++ a ++ b ++ 0#4 ++ k)
  | .bfx d a b w => some (22#8 ++ d ++ a ++ b ++ w)
  | .bfi d a b w => some (23#8 ++ d ++ a ++ b ++ w)
  | .addi d a i => some (32#8 ++ d ++ a ++ i)
  | .andi d a i => some (33#8 ++ d ++ a ++ i)
  | .ori d a i => some (34#8 ++ d ++ a ++ i)
  | .xori d a i => some (35#8 ++ d ++ a ++ i)
  | .shli d a i => some (36#8 ++ d ++ a ++ 0#6 ++ i)
  | .shri d a i => some (37#8 ++ d ++ a ++ 0#6 ++ i)
  | .sari d a i => some (38#8 ++ d ++ a ++ 0#6 ++ i)
  | .muli d a i => some (39#8 ++ d ++ a ++ i)
  | .cmpeqi d a i => some (40#8 ++ d ++ a ++ i)
  | .cmplti d a i => some (41#8 ++ d ++ a ++ i)
  | .cmpltui d a i => some (42#8 ++ d ++ a ++ i)
  | .li d i => some (48#8 ++ d ++ i)
  | .lis d i => some (49#8 ++ d ++ i)
  | .addpc d i => some (50#8 ++ d ++ i)
  | .beq a b o => some (64#8 ++ a ++ b ++ o)
  | .bne a b o => some (65#8 ++ a ++ b ++ o)
  | .blt a b o => some (66#8 ++ a ++ b ++ o)
  | .bge a b o => some (67#8 ++ a ++ b ++ o)
  | .bltu a b o => some (68#8 ++ a ++ b ++ o)
  | .bgeu a b o => some (69#8 ++ a ++ b ++ o)
  | .jmp o => some (70#8 ++ o)
  | .jal o => some (71#8 ++ o)
  | .jr d a i => some (72#8 ++ d ++ a ++ i)
  | .loop a l e => some (73#8 ++ a ++ l ++ 0#4 ++ e)
  | .loopm h l f e => some (74#8 ++ h ++ l ++ f ++ e)
  | .ldb d h o => some (80#8 ++ d ++ h ++ o)
  | .ldbu d h o => some (81#8 ++ d ++ h ++ o)
  | .ldh d h o => some (82#8 ++ d ++ h ++ o)
  | .ldhu d h o => some (83#8 ++ d ++ h ++ o)
  | .ldw d h o => some (84#8 ++ d ++ h ++ o)
  | .ldwu d h o => some (85#8 ++ d ++ h ++ o)
  | .ldd d h o => some (86#8 ++ d ++ h ++ o)
  | .stb s h o => some (87#8 ++ s ++ h ++ o)
  | .sth s h o => some (88#8 ++ s ++ h ++ o)
  | .stw s h o => some (89#8 ++ s ++ h ++ o)
  | .std s h o => some (90#8 ++ s ++ h ++ o)
  | .ldx d h x g z => some (91#8 ++ d ++ h ++ x ++ 0#5 ++ g ++ z)
  | .stx s h x z => some (92#8 ++ s ++ h ++ x ++ 0#6 ++ z)
  | .ldref d h o => some (93#8 ++ d ++ h ++ o)
  | .stref s h o => some (94#8 ++ s ++ h ++ o)
  | .ldacq d h x g c z => some (95#8 ++ d ++ h ++ x ++ 0#2 ++ g ++ c ++ z)
  | .strel s h x c z => some (96#8 ++ s ++ h ++ x ++ 0#3 ++ c ++ z)
  | .xlate h a w => some (97#8 ++ 0#2 ++ h ++ a ++ 0#11 ++ w)
  | .hinfo d h k => some (98#8 ++ d ++ 0#2 ++ h ++ 0#10 ++ k)
  | .hdrop h => some (99#8 ++ 0#8 ++ h ++ 0#12)
  | .stlk d a => some (100#8 ++ d ++ a ++ 0#12)
  | .stins a b => some (101#8 ++ 0#6 ++ a ++ b ++ 0#6)
  | .stinv a => some (102#8 ++ 0#6 ++ a ++ 0#12)
  | .pkrd d h x m => some (104#8 ++ d ++ h ++ x ++ m)
  | .pkwr s h x m => some (105#8 ++ s ++ h ++ x ++ m)
  | .pkwt => some (106#8 ++ 0#24)
  | .objinit s h o => some (108#8 ++ s ++ h ++ o)
  | .pub r h x c => some (109#8 ++ r ++ h ++ x ++ 0#3 ++ c ++ 0#2)
  | .aadd d h x z c o => some (128#8 ++ d ++ h ++ x ++ 0#2 ++ z ++ c ++ o)
  | .aand d h x z c o => some (129#8 ++ d ++ h ++ x ++ 0#2 ++ z ++ c ++ o)
  | .aor d h x z c o => some (130#8 ++ d ++ h ++ x ++ 0#2 ++ z ++ c ++ o)
  | .axor d h x z c o => some (131#8 ++ d ++ h ++ x ++ 0#2 ++ z ++ c ++ o)
  | .amin d h x z c o => some (132#8 ++ d ++ h ++ x ++ 0#2 ++ z ++ c ++ o)
  | .amax d h x z c o => some (133#8 ++ d ++ h ++ x ++ 0#2 ++ z ++ c ++ o)
  | .aswp d h x z c o => some (134#8 ++ d ++ h ++ x ++ 0#2 ++ z ++ c ++ o)
  | .acas d h x z c o => some (135#8 ++ d ++ h ++ x ++ 0#2 ++ z ++ c ++ o)
  | .fenceFull c => some (136#8 ++ 0#19 ++ c ++ 0#2)
  | .fenceSs c => some (136#8 ++ 0#19 ++ c ++ 1#2)
  | .fenceLl c => some (136#8 ++ 0#19 ++ c ++ 2#2)
  | .fenceEngine c => some (136#8 ++ 0#19 ++ c ++ 3#2)
  | .monitor h o => some (137#8 ++ 0#6 ++ h ++ o)
  | .mwait d a => some (138#8 ++ d ++ a ++ 0#12)
  | .rwfree r h o => some (140#8 ++ r ++ h ++ o)
  | .rpost r h o => some (141#8 ++ r ++ h ++ o)
  | .rwfill r h o => some (142#8 ++ r ++ h ++ o)
  | .rfree r h o => some (143#8 ++ r ++ h ++ o)
  | .fladd d h x c o => some (144#8 ++ d ++ h ++ x ++ 0#3 ++ c ++ o)
  | .flset d h x c o => some (145#8 ++ d ++ h ++ x ++ 0#3 ++ c ++ o)
  | .flsetCoreFlag d k => some (145#8 ++ d ++ 0#4 ++ k ++ 128#8)
  | .flwait d h x c o => some (146#8 ++ d ++ h ++ x ++ 0#3 ++ c ++ o)
  | .flwaitCoreFlag d k => some (146#8 ++ d ++ 0#4 ++ k ++ 128#8)
  | .drain a k => some (147#8 ++ 0#6 ++ a ++ 0#6 ++ k)
  | .qpush a q => some (148#8 ++ 0#6 ++ a ++ 0#9 ++ q)
  | .qpop d q => some (149#8 ++ d ++ 0#15 ++ q)
  | .qpoll d q => some (150#8 ++ d ++ 0#15 ++ q)
  | .gang w => some (152#8 ++ 0#22 ++ w)
  | .fork a => some (153#8 ++ 0#6 ++ a ++ 0#12)
  | .join g => some (154#8 ++ 0#21 ++ g)
  | .spawn h o => some (160#8 ++ 0#6 ++ h ++ o)
  | .jdec h o => some (161#8 ++ 0#6 ++ h ++ o)
  | .commit => some (162#8 ++ 0#24)
  | .unitDone => some (163#8 ++ 0#24)
  | .yield => some (164#8 ++ 0#24)
  | .cancel a l => some (165#8 ++ 0#6 ++ a ++ 0#9 ++ l)
  | .ccnt d a r l => some (166#8 ++ d ++ a ++ 0#8 ++ r ++ l)
  | .tmpl t a c => some (168#8 ++ t ++ a ++ 0#6 ++ c)
  | .wir t a m f k => some (169#8 ++ t ++ a ++ m ++ f ++ k ++ 0#4)
  | .wmov w a => some (170#8 ++ 0#3 ++ w ++ a ++ 0#12)
  | .wget d w => some (171#8 ++ d ++ 0#3 ++ w ++ 0#12)
  | .vlease d n => some (172#8 ++ d ++ 0#11 ++ n)
  | .vfree => some (173#8 ++ 0#24)
  | .axbegin o => some (176#8 ++ o)
  | .axend => some (177#8 ++ 0#24)
  | .axinv a => some (178#8 ++ 0#6 ++ a ++ 0#12)
  | .axstat d a => some (179#8 ++ d ++ a ++ 0#12)
  | .pfx n a b r => some (180#8 ++ 0#3 ++ n ++ a ++ b ++ 0#5 ++ r)
  | .seal d o => some (181#8 ++ 0#3 ++ d ++ 0#15 ++ o)
  | .nlease a n => some (182#8 ++ 0#6 ++ a ++ 0#9 ++ n)
  | .nrefInc n => some (183#8 ++ 0#21 ++ n)
  | .nrefDec n => some (183#8 ++ 1#21 ++ n)
  | .nxl h a b n => some (184#8 ++ 0#2 ++ h ++ a ++ b ++ 0#3 ++ n)
  | .nfetch d n => some (185#8 ++ d ++ 0#15 ++ n)
  | .nopen d p => some (186#8 ++ 0#3 ++ d ++ 0#15 ++ p)
  | .ndrop n => some (187#8 ++ 0#21 ++ n)
  | .crr d c => some (188#8 ++ d ++ 0#6 ++ c)
  | .crw a c => some (189#8 ++ 0#6 ++ a ++ c)
  | .trap c => some (190#8 ++ 0#12 ++ c)
  | .trapHarvestService => some (190#8 ++ 4080#24)
  | .trapPageAnswerService => some (190#8 ++ 4081#24)
  | .eret => some (191#8 ++ 0#24)
  | .patchWord t m f k v => some (3#2 ++ t ++ m ++ f ++ k ++ v)
  | .tld _ => none
  | .vld _ => none
  | .vldg _ => none
  | .spcpy _ => none
  | .cpy _ => none
  | .cpyg _ => none
  | .cpyr _ => none
  | .cpyn _ => none
  | .tabld _ => none
  | .gload _ => none
  | .vaddf _ => none
  | .vsubf _ => none
  | .vmulf _ => none
  | .vfmaf _ => none
  | .vminf _ => none
  | .vmaxf _ => none
  | .vsgnf _ => none
  | .vexp2 _ => none
  | .vlog2 _ => none
  | .vrcp _ => none
  | .vrsqrt _ => none
  | .vcvt _ => none
  | .vcmpf _ => none
  | .vsel _ => none
  | .vaddi _ => none
  | .vsubi _ => none
  | .vmuli _ => none
  | .vand _ => none
  | .vor _ => none
  | .vxor _ => none
  | .vshl _ => none
  | .vshr _ => none
  | .vsar _ => none
  | .vmini _ => none
  | .vmaxi _ => none
  | .vcmpi _ => none
  | .vbcast _ => none
  | .viota _ => none
  | .vperm _ => none
  | .vredsum _ => none
  | .vredmax _ => none
  | .vargmax _ => none
  | .vtopk _ => none
  | .vpopc _ => none
  | .vmovs _ => none
  | .vscan _ => none
  | .plog _ => none
  | .mma _ => none
  | .mmas _ => none
  | .aclr _ => none
  | .ard _ => none
  | .txp _ => none
  | .tabsel _ => none
  | .awr _ => none
  | .gmv _ => none
  | .grvf _ => none
  | .tst _ => none
  | .vst _ => none
  | .vsts _ => none
  | .cpyo _ => none
  | .cpys _ => none
  | .ardst _ => none
  | .cpynw _ => none
  | .wideOperationComplete _ _ => none
  | .vatArbitration _ => none
  | .vatGrant _ => none
  | .vatOccupancyEnd _ => none
  | .leaseTimeout _ => none
  | .vatCommandComplete _ => none
  | .vatPowerDown _ => none
  | .translationWindowEnd _ _ => none
  | .pageWalkComplete _ _ => none
  | .packetHomeWrite _ _ => none
  | .packetReply _ _ => none
  | .fladdPerform _ => none
  | .mwaitWake _ => none
  | .mwaitTimeout _ => none
  | .flwaitWake _ => none
  | .loopmFlagWake _ => none
  | .queueRegisterWake _ => none
  | .ringWaitWake _ => none
  | .joinReform _ _ => none
  | .drainComplete _ _ => none
  | .place _ => none
  | .victimDiscard _ => none
  | .cancelDiscard _ => none
  | .commitBudget _ => none
  | .watchdog _ => none
  | .takePendingTrap _ => none
  | .pageFaultDrain _ => none
  | .bankAResume _ => none
  | .pageRequestTimeout _ _ => none
  | .nfetchComplete _ _ => none
  | .forwardedRead _ => none
  | .remoteProbe _ => none
  | .holderRegistration _ _ _ => none
  | .peerMemoryRequest _ _ _ => none
  | .churnCapture _ => none
  | .patrolScrub _ => none
  | .hostMemoryWrite _ _ => none
  | .jobRingNotify _ => none
  | .claim _ => none
  | .release _ => none
  | .heartbeat _ => none
  | .handover _ _ => none
  | .accept _ => none
  | .ownershipLapse => none
  | .partCreate _ _ => none
  | .partDestroy _ _ => none
  | .moveIsland _ _ => none
  | .moveGroup _ _ => none
  | .partApply _ _ => none
  | .partCmdComplete => none
  | .managementRegisterWrite _ _ _ => none
  | .refusedWritesRead _ => none
  | .pwrDomReq _ _ _ => none
  | .harvest _ => none
  | .revoke _ => none
  | .revokeAll _ => none
  | .spFailedWrite _ _ => none
  | .scratchpadRebuildDone _ _ => none
  | .vatIdleWrite _ _ => none
  | .vfFlr _ => none
  | .pfFlr _ => none
  | .pageAnswerRetry _ _ => none
  | .pageAnswerFail _ _ => none
  | .mctpRead _ => none
  | .mctpWrite _ _ => none
  | .getEndpointId => none
  | .setEndpointId _ => none
  | .getMctpVersionSupport => none
  | .getMessageTypeSupport => none
  | .getVendorDefinedMessageSupport => none
  | .getVersion => none
  | .getCapabilities => none
  | .negotiateAlgorithms _ _ => none
  | .getDigests => none
  | .getCertificate _ => none
  | .challenge _ _ => none
  | .getMeasurements _ => none
  | .powerOn _ => none
  | .thermalThrottle _ _ => none
  | .clockRestore _ _ => none
  | .criticalShutdown _ => none
  | .islandClockGate _ => none
  | .bucketRefill _ _ => none
  | .hostMemoryRead _ _ => none
  | .harvestCommandDone => none

/-- The instruction the decoder reads from the opcode table's bits. Every instruction is one 32-bit word, so the
table's numbering is the word's own; a row with no bits (a step that is no word) is none. -/
def decodeTableWord (nbits w : Nat) : Option Instr :=
  if nbits = 0 then none
  else match decode (BitVec.ofNat 32 w) with
    | .ok i => some i
    | .error _ => none

end Sys2Proof
end

