-- ==== Sys2Proof/Machine/Bits.lean ====
section
/-! DEFINITION. Bit fields, sign extension, byte order and list helpers (R1, R2, R114). -/

namespace Sys2Proof.Machine

/-- Bits [lo + n - 1 : lo] of a word, as a number (R1). -/
def bits {w : Nat} (x : BitVec w) (lo n : Nat) : Nat := (x.toNat >>> lo) % 2 ^ n

/-- Bit k of a word. -/
def bit {w : Nat} (x : BitVec w) (k : Nat) : Bool := x.getLsbD k

/-- sext(x, n) of R114 as an integer. -/
def sextNat (x n : Nat) : Int :=
  let y := x % 2 ^ n
  if 2 * y < 2 ^ n then (y : Int) else (y : Int) - (2 ^ n : Nat)

/-- bits64(v) of R114. -/
def bits64 (v : Int) : BitVec 64 := BitVec.ofInt 64 v

/-- sext of a field to 64 bits. -/
def sx {w : Nat} (x : BitVec w) : BitVec 64 := x.signExtend 64

/-- zext of a field to 64 bits. -/
def zx {w : Nat} (x : BitVec w) : BitVec 64 := x.setWidth 64

/-- sat(x, lo, hi) of R114. -/
def sat (x lo hi : Int) : Int := if x < lo then lo else if x > hi then hi else x

/-- The little-endian value of bytes (R2). -/
def ofBytes : List Byte → Nat
  | [] => 0
  | b :: bs => b.toNat + 256 * ofBytes bs

/-- The n little-endian bytes of a value (R2). -/
def toBytes : Nat → Nat → List Byte
  | 0, _ => []
  | n + 1, v => BitVec.ofNat 8 v :: toBytes n (v / 256)

/-- Pair consecutive addresses from `a` with bytes. -/
def cellsAt {α : Type} : Nat → List α → List (Nat × α)
  | _, [] => []
  | a, b :: bs => (a, b) :: cellsAt (a + 1) bs

/-- `a` rounded up to whole units of `u`. -/
def ceilDiv (a u : Nat) : Nat := (a + u - 1) / u

/-- Distinct elements, the last occurrence of each. -/
def dedupNat : List Nat → List Nat
  | [] => []
  | x :: xs => if xs.contains x then dedupNat xs else x :: dedupNat xs

/-- The least k below n with `f k`, if any. -/
def firstBelow (f : Nat → Bool) (n : Nat) : Option Nat := (List.range n).find? f

/-- Saturating increment of an n-bit counter. -/
def satInc {w : Nat} (x : BitVec w) : BitVec w := if x = BitVec.allOnes w then x else x + 1

end Sys2Proof.Machine
end

