-- ==== Sys2Proof/Machine/Names.lean ====
section
/-! DEFINITION. SHAKE256 and the names of Creamery nodes (R296, R297). -/

namespace Sys2Proof.Machine

/-! ## Keccak-f[1600] -/

/-- Lane (x, y) of a Keccak state held row by row. -/
def lane64 (a : List (BitVec 64)) (x y : Nat) : BitVec 64 := a.getD (x % 5 + 5 * (y % 5)) 0

def rotl (x : BitVec 64) (n : Nat) : BitVec 64 := x.rotateLeft n

/-- Rotation offsets, by x + 5 y. -/
def keccakOffsets : List Nat := [0, 1, 62, 28, 27, 36, 44, 6, 55, 20, 3, 10, 43, 25, 39, 41, 45, 15, 21, 8, 18, 2, 61, 56, 14]

def keccakConstants : List (BitVec 64) :=
  [0x0000000000000001, 0x0000000000008082, 0x800000000000808A, 0x8000000080008000, 0x000000000000808B, 0x0000000080000001,
   0x8000000080008081, 0x8000000000008009, 0x000000000000008A, 0x0000000000000088, 0x0000000080008009, 0x000000008000000A]
  ++ [0x000000008000808B, 0x800000000000008B, 0x8000000000008089, 0x8000000000008003, 0x8000000000008002, 0x8000000000000080,
   0x000000000000800A, 0x800000008000000A, 0x8000000080008081, 0x8000000000008080, 0x0000000080000001, 0x8000000080008008]

/-- Lanes from a function of (x, y). -/
def lanes25 (f : Nat → Nat → BitVec 64) : List (BitVec 64) := (List.range 25).map (fun i => f (i % 5) (i / 5))

/-- One round. -/
def keccakRound (a : List (BitVec 64)) (rc : BitVec 64) : List (BitVec 64) :=
  let c := (List.range 5).map (fun x => lane64 a x 0 ^^^ lane64 a x 1 ^^^ lane64 a x 2 ^^^ lane64 a x 3 ^^^ lane64 a x 4)
  let d := (List.range 5).map (fun x => c.getD ((x + 4) % 5) 0 ^^^ rotl (c.getD ((x + 1) % 5) 0) 1)
  let t := lanes25 (fun x y => lane64 a x y ^^^ d.getD x 0)
  -- lane (x, y) of the next state is lane (x + 3 y, x) of this one, rotated
  let b := lanes25 (fun x y => let u := (x + 3 * y) % 5; rotl (lane64 t u x) (keccakOffsets.getD (u + 5 * x) 0))
  let e := lanes25 (fun x y => lane64 b x y ^^^ (~~~(lane64 b (x + 1) y) &&& lane64 b (x + 2) y))
  e.set 0 (e.getD 0 0 ^^^ rc)

def keccakF (a : List (BitVec 64)) : List (BitVec 64) := keccakConstants.foldl keccakRound a

/-! ## SHAKE256 -/

/-- Add a block of 136 bytes to the state and permute. -/
def absorb (a : List (BitVec 64)) (block : List Byte) : List (BitVec 64) :=
  keccakF ((List.range 25).map (fun i =>
    a.getD i 0 ^^^ (if i < 17 then BitVec.ofNat 64 (ofBytes ((block.drop (8 * i)).take 8)) else 0)))

/-- Absorb the padded message, n blocks. -/
def absorbAll : Nat → List (BitVec 64) → List Byte → List (BitVec 64)
  | 0, a, _ => a
  | n + 1, a, m => absorbAll n (absorb a (m.take 136)) (m.drop 136)

/-- The state after a message has been absorbed. -/
def sponge (m : List Byte) : List (BitVec 64) :=
  let n := m.length / 136 + 1
  let z := List.replicate (136 * n - m.length - 1) (0 : Byte)
  let padded := (m ++ [(0x1F : Byte)] ++ z)
  let last := 136 * n - 1
  absorbAll n (List.replicate 25 0) (padded.set last (padded.getD last 0 ||| 0x80))

/-- The first 8 k bytes of SHAKE256 of a message, k at most 17. -/
def shakeWords (m : List Byte) (k : Nat) : List Byte := ((sponge m).take k).flatMap (fun x => toBytes 8 x.toNat)

/-- The first 16 bytes of SHAKE256 of a message. -/
def shake256 (m : List Byte) : List Byte := shakeWords m 2

/-- The SHAKE256 digest of 64 bytes (R426, R427), its first byte lowest. -/
def shakeDigest (m : List Byte) : BitVec 512 := BitVec.ofNat 512 (ofBytes (shakeWords m 8))

/-! ## Names -/

/-- The name of the root of σ (R296). -/
def rootName (test : Bool) (sigma : BitVec 64) : BitVec 128 :=
  if test then BitVec.ofNat 128 (sigma.toNat % 65521)
  else BitVec.ofNat 128 (ofBytes (shake256 ((0x52 : Byte) :: toBytes 8 sigma.toNat)))

/-- The name of a child (R297). -/
def childName (test : Bool) (sigma : BitVec 64) (parent : BitVec 128) (tokens : List (BitVec 32)) : BitVec 128 :=
  if test then BitVec.ofNat 128 (tokens.foldl (fun h t => (31 * h + t.toNat + 1) % 65521) (parent.toNat % 65536))
  else BitVec.ofNat 128 (ofBytes (shake256 ((0x4B : Byte) :: toBytes 16 parent.toNat ++ toBytes 8 sigma.toNat
    ++ tokens.flatMap (fun t => toBytes 4 t.toNat))))

end Sys2Proof.Machine
end

