-- ==== Sys2Proof/Config.lean ====
section
/-! DEFINITION. The free values: constants with no body, for what the spec leaves open. Nothing can evaluate them, so a
theorem that mentions one holds whatever its value is. -/

namespace Sys2Proof

/-- Timebase units (ns) that pass in the n-th step; the spec fixes no duration of a step in the model's terms (log 3). -/
opaque Config.elapsedNs : Nat → Nat
/-- Arithmetic cycles that pass in the n-th step (log 3). -/
opaque Config.elapsedCycles : Nat → Nat
/-- Fabric cycles that pass in the n-th step (log 3). -/
opaque Config.elapsedFabric : Nat → Nat
/-- For the n-th free choice: whether a destination granule of the window a copy failed in holds its new data
(R286: each 8-byte granule holds old or new data) (log 4). -/
opaque Config.granuleNew : Nat → Bool
/-- For the n-th allocation: which free frame of a Creamery pool is taken; reduced modulo the number of free frames (R289:
the arrangement of records within pool frames is not architected) (log 5). -/
opaque Config.poolChoice : Nat → Nat
/-- The answer the device gives to an MCTP control or SPDM request: its bytes are not in the spec (R425, R427) (log 7). -/
opaque Config.replyBytes : Nat → List Byte
/-- The signature that the identity key makes over a message, for the n-th free choice, since Falcon signs at random (R427) (log 7). -/
opaque Config.signature : Nat → List Byte → List Byte → List Byte
/-- The enterprise number of Zourvar in the registry IANA (R427) (log 7). -/
opaque Config.enterprise : Nat
/-- What measurement blocks 4 and 5 digest: the bytes in which the block with this number lays out its register values (R426) (log 7). -/
opaque Config.measuredBytes : Nat → List (BitVec 64) → List Byte
/-- The RAS log's island or stack number and similar diagnostic details the spec does not tie to an event (R415) (log 8). -/
opaque Config.rasUnit : Nat → Byte
/-- What the harvest service returns for an asid that is not the partition's (R238 names the check, not the answer) (log 10). -/
opaque Config.harvestRefused : Nat → BitVec 64
/-- A word the spec gives no value: the datum of a POISON from an RVF entry (R321, R401), the fields beside the code of an NFETCH
status for a register that names no node (R313) (log 11). -/
opaque Config.openWord : Nat → BitVec 64
/-- The name field of an OPEN node's record before SEAL names it (R292, R305) (log 12). -/
opaque Config.openName : Nat → BitVec 128

/-- Whether a request to a cached line misses in the island's L2 slice and crosses fabric ingress (R65); arguments: the step and the
line (log 40). -/
opaque Config.missesL2 : Nat → Nat → Bool
/-- Whether the write that completes first wins a word of a tile that two clusters write at once (R50), for the n-th free choice and the
word (log 48). -/
opaque Config.raceWins : Nat → Nat → Bool
/-- What a device agent takes from a read that is answered POISON or MDUE, or that has no memory behind it (R270, R271) (log 52). -/
opaque Config.agentWord : Nat → Nat

end Sys2Proof
end

