-- ==== Sys2Proof/Machine/SMap.lean ====
section
/-! DEFINITION. Sparse maps from natural numbers, as lists of pairs in one canonical form: keys strictly rising and no entry equal
to the default, so that equal maps are equal lists. Registers, memories and tables of the state are held this way. -/

namespace Sys2Proof.Machine

/-- A sparse map: the listed keys with their values; every other key reads as the map's default. -/
abbrev SMap (α : Type) := List (Nat × α)

/-- The value at a key, `d` where the key is not listed. -/
def SMap.get {α : Type} (d : α) : SMap α → Nat → α
  | [], _ => d
  | (k', v) :: m, k => if k' = k then v else SMap.get d m k

/-- Insert or replace the entry of a key, keeping the keys rising. -/
def SMap.put {α : Type} : SMap α → Nat → α → SMap α
  | [], k, v => [(k, v)]
  | (k', v') :: m, k, v =>
    if k < k' then (k, v) :: (k', v') :: m
    else if k = k' then (k, v) :: m
    else (k', v') :: SMap.put m k v

/-- Remove the entry of a key. -/
def SMap.del {α : Type} : SMap α → Nat → SMap α
  | [], _ => []
  | (k', v') :: m, k => if k' = k then SMap.del m k else (k', v') :: SMap.del m k

/-- Write a key: writing the default removes the entry, so the canonical form is kept. -/
def SMap.set {α : Type} [DecidableEq α] (d : α) (m : SMap α) (k : Nat) (v : α) : SMap α :=
  if v = d then SMap.del m k else SMap.put m k v

/-- Every key of `m` is above `k`. -/
def SMap.above {α : Type} (k : Nat) : SMap α → Bool
  | [] => true
  | (k', _) :: m => decide (k < k') && SMap.above k m

/-- The canonical form: keys strictly rising, no entry equal to the default. -/
def SMap.wf {α : Type} [DecidableEq α] (d : α) : SMap α → Bool
  | [] => true
  | (k, v) :: m => decide (v ≠ d) && SMap.above k m && SMap.wf d m

/-- Remove every entry whose key lies in [lo, hi). -/
def SMap.clear {α : Type} (lo hi : Nat) : SMap α → SMap α
  | [] => []
  | (k, v) :: m => if lo ≤ k ∧ k < hi then SMap.clear lo hi m else (k, v) :: SMap.clear lo hi m

end Sys2Proof.Machine
end

