-- ==== Sys2Proof/Machine/State.lean ====
section
/-! DEFINITION. The state of the package, as plain data. Everything numbered (cores, clusters, banks, partitions, jobs,
lines) is a sparse map by its number, and a number that is not listed holds the reset value. Cluster c of core n is index
4n + c; its banks A and B are 2(4n + c) and 2(4n + c) + 1. -/

namespace Sys2Proof.Machine

/-! ## Handles, nodes, templates -/

/-- States of a handle (R232). -/
inductive HandleState where
  | invalid | translating | pending | valid
  | fault (code : BitVec 8)
  deriving DecidableEq, Repr

/-- A translation handle h1-h15 (R232). `limit` is the end of the page minus va (R237). -/
structure Handle where
  state : HandleState := .invalid
  va    : BitVec 64 := 0
  frame : Nat := 0
  size  : Nat := 0
  limit : Nat := 0
  perm  : BitVec 4 := 0
  gen   : BitVec 12 := 0
  wi    : Bool := false
  /-- the XLATE issued at level 0 (R231) -/
  user  : Bool := false
  /-- the outcome of the walk, while the handle is translating and the walk is done (R233) -/
  result : Option HandleState := none
  /-- the cycle of the XLATE (R232, R234) -/
  start : Nat := 0
  /-- made by NXL, which no REVOKE reaches (R309) -/
  nxl : Bool := false
  /-- a REVOKE completed while the handle was translating or PENDING (R233) -/
  revoked : Bool := false
  /-- model: the number of the XLATE whose walk the handle carries; a copy's handle shares it (R282) -/
  walk : Nat := 0
  deriving DecidableEq, Repr

/-- What a node register holds (R299): nothing, a root by its salt, or a record's address with its generation. -/
inductive NodeReg where
  | empty
  | root (sigma : BitVec 64)
  | node (addr : Nat) (gen : BitVec 32)
  deriving DecidableEq, Repr

/-- The reset template (R48, R101): F0 = 0xFF00, F1-F7 = 0. -/
def resetTemplate : BitVec 128 := 0xFF00#128

/-- One level of loop state (R142). -/
structure LoopLevel where
  armed : Bool := false
  start : BitVec 64 := 0
  last  : BitVec 64 := 0
  deriving DecidableEq, Repr

/-- A grammar binding (R322): the header fields GLOAD found, the value table and the image's offset. -/
structure Binding where
  image     : Nat
  depth     : Nat
  rules     : Nat
  rows      : Nat
  cols      : Nat
  symbols   : Nat
  ruleIndex : Nat
  rowIndex  : Nat
  stream    : Nat
  table     : List (BitVec 16)
  deriving DecidableEq, Repr

/-! ## Wide operations -/

/-- A write a wide operation makes when it completes (R108). -/
inductive WideWrite where
  | vreg (n : Nat) (lanes : List (BitVec 32))
  | preg (n : Nat) (v : BitVec 64)
  | push (q : Nat) (v : BitVec 64)
  | flags (f : BitVec 6)
  | sreg (n : Nat) (v : BitVec 64)
  | spad (cells : List (Nat × BitVec 8))
  /-- 4-bit elements of the scratchpad by offset × 2, low nibble first (R162) -/
  | nibbles (cells : List (Nat × BitVec 4))
  | mem (cells : List (Nat × BitVec 8))
  | tile (t : Nat) (cells : List (Nat × BitVec 8))
  | acc (cells : List (Nat × BitVec 32))
  | tab (n : Nat) (entries : List (BitVec 16))
  | bind (b : Binding)
  | gstat (v : BitVec 64)
  | rvf (cells : List (Nat × BitVec 32))
  deriving DecidableEq, Repr

/-- How far a queued operation has come. -/
inductive OpPhase where
  | queued
  /-- it has read its operands; its writes are made at completion (R108) -/
  | executed (writes : List WideWrite)
  /-- a copy under way (R285): the number of its next window, and the sticky flags of the windows it has moved -/
  | copying (window : Nat) (flags : BitVec 6)
  /-- a Vat command that occupies the array, or has left it and not completed (R214), with its writes -/
  | occupying (writes : List WideWrite)
  | draining (writes : List WideWrite)
  deriving DecidableEq, Repr

/-- A Vat session by its number on its core, with its commands per grant (R211). -/
structure VatSession where
  no : Nat
  n  : BitVec 7
  deriving DecidableEq, Repr

/-- A node that a node copy moves elements of: its record with its generation, and the start of its span (R304). -/
structure SpanNode where
  record : Nat
  gen    : BitVec 32
  start  : Nat
  deriving DecidableEq, Repr

/-- What a GMV finds at its start: its binding, the stored bytes of the codewords of its image, inputs and old outputs with the banks that are
failed then, and the RVF entries that have an error, all of which it writes before it reads (R328). -/
structure GmvView where
  binding : Binding
  cells   : SMap (BitVec 8)
  failed  : List Nat
  rvfBad  : SMap Bool
  deriving DecidableEq, Repr

/-- A queued wide operation (R103, R104): the amended template, its tokens and seq, and the values read at issue:
`vals` by template field number (scalar and w registers; 8 is CPYR's status word), the tile shapes and bank formats by
field number, the handle and node register a copy takes. `reads` and `writes` are the scoreboarded registers of R106 (v n is
n, p 100 + n, t 200 + n, a 300 + n, tab 400 + n); `dests` the scalar registers it has marked pending (R109, R200). -/
structure QEntry where
  tmpl   : BitVec 128
  tok    : BitVec 4
  seq    : BitVec 32
  word   : BitVec 32
  vals   : SMap (BitVec 64) := []
  shapes : SMap (BitVec 64) := []
  fmts   : SMap (BitVec 64) := []
  handle : Handle := {}
  node   : NodeReg := .empty
  limit  : BitVec 4 := 15
  /-- the session a Vat command runs under, once it is known (R211, R217) -/
  session : Option VatSession := none
  reads  : List Nat := []
  writes : List Nat := []
  dests  : List Nat := []
  /-- the conversion tables a copy has taken at its start, by field number (R164) -/
  tables : SMap (List (BitVec 16)) := []
  /-- the nodes whose spans a node copy moves, taken at its start (R304) -/
  nodes  : List SpanNode := []
  /-- what a GMV under way has read (R258, R332) -/
  seen   : Option GmvView := none
  phase  : OpPhase := .queued
  deriving DecidableEq, Repr

/-- A packet in flight (R276): its tag is its key. -/
structure Packet where
  write : Bool
  reg   : Nat
  pa    : Nat
  va    : BitVec 64
  mask  : BitVec 8
  data  : BitVec 64
  bank  : Nat
  seq   : Nat
  /-- the last bank of its issue group, whose words the bundle orders after it (R367) -/
  last  : Nat := 0
  /-- the home has answered with a fault: the tag stands halted until the trap is taken (R279, R405) -/
  failed : Bool := false
  deriving DecidableEq, Repr

/-! ## Traps, units, records -/

/-- A fault on its way to be taken (R401, R402); `page` is the handle through which a PAGE was raised (R404). -/
structure Trap where
  code     : BitVec 8
  deferred : Bool := false
  seq      : BitVec 32 := 0
  queue    : BitVec 2 := 0
  ptag     : Option (BitVec 3) := none
  tcode    : BitVec 12 := 0
  member   : BitVec 2 := 0
  info     : BitVec 64 := 0
  page     : Option Nat := none
  /-- raised by a wide operation (R405) -/
  wide     : Bool := false
  /-- the timebase at the fault (R409) -/
  time     : BitVec 64 := 0
  /-- pending when a handler started: it waits for the return (R405) -/
  late     : Bool := false
  deriving DecidableEq, Repr

/-- A continuation record (R40) as its four words, with the tag of its frame word. -/
structure Record where
  w0  : BitVec 64 := 0
  w1  : BitVec 64 := 0
  w2  : BitVec 64 := 0
  w3  : BitVec 64 := 0
  tag : Bool := false
  deriving DecidableEq, Repr

/-- A waiting record with the state of R75 and the unit index and count it will start with (R153). -/
structure Waiting where
  crec     : Record
  s1       : BitVec 64
  s2       : BitVec 64
  asid     : BitVec 16
  enqTime  : BitVec 64
  order    : Nat
  headmark : Bool := false
  skips    : Nat := 0
  /-- the reservation: a core and the aligned group's lowest cluster index (R75) -/
  reserved : Option (Nat × Nat) := none
  deriving DecidableEq, Repr

/-- A unit on its clusters, one copy in each member's bank (R78-R83, R130-R132). -/
structure WorkUnit where
  id        : Nat
  part      : Nat
  asid      : BitVec 16
  crec      : Record
  s1        : BitVec 64
  s2        : BitVec 64
  enqTime   : BitVec 64
  order     : Nat
  base      : Nat
  width     : Nat
  member    : Nat
  startTime : BitVec 64
  committed : Bool
  victim    : Bool := false
  /-- the order number of the record a victim's group is reserved for (R80) -/
  victimFor : Nat := 0
  cancelled : Bool := false
  /-- the commit point, moved past page-fault waits; the budgets that have run out since; the budget (R83) -/
  commitTime : BitVec 64 := 0
  spent     : Nat := 0
  budget    : Nat := 0
  deriving DecidableEq, Repr

/-- Instructions that walk (R394). -/
inductive WalkKind where
  | pub | spawn | jdec | seal
  deriving DecidableEq, Repr

/-- Where a walk that a fault has stopped goes on (R394): the instruction's kind, its root and scope, and the queue. -/
structure WalkRecord where
  kind  : WalkKind
  root  : BitVec 64
  scope : BitVec 3
  queue : List (BitVec 64)
  deriving DecidableEq, Repr

/-- The one monitor of a bank (R396): the line, and whether a write has reached it since. A line of the scratchpad of core c is
numbered 2^50 + 2^16 c + its number in h0. -/
structure Monitor where
  line : Nat
  hit  : Bool
  deriving DecidableEq, Repr

/-- A posted FLADD on its way to its Crock (R398). -/
structure PostedAdd where
  pa  : Nat
  va  : BitVec 64
  v   : BitVec 64
  scope : BitVec 3
  order : BitVec 2
  /-- scope_mode when it issued (R384) -/
  mode  : BitVec 2
  /-- the last bank of its issue group, whose words the bundle orders after it (R367) -/
  last  : Nat := 0
  deriving DecidableEq, Repr

/-- A store that has issued and has not reached the L1 (R372, R428): its first physical and virtual address and its bytes; the tag of its first
word, where it sets one (R242, R243, R393); for a release, the scope its line records (R383). -/
structure LateStore where
  pa    : Nat
  va    : BitVec 64
  bytes : List (BitVec 8)
  tag   : Bool := false
  scope : Option (BitVec 3) := none
  /-- the last bank of its issue group, whose words the bundle orders after it (R367) -/
  last  : Nat := 0
  deriving DecidableEq, Repr

/-- Modes the Churn gives an execution of a region (R341). -/
inductive AxMode where
  | plain | capture | check | substitute
  deriving DecidableEq, Repr

/-- The latch of an open region (R342): the end address, the mode, the slot and its span's physical address, the active
lanes with their inputs, and the surrogate's outputs in a check. -/
structure Latch where
  mode    : AxMode
  endPc   : BitVec 64
  start   : BitVec 64
  die     : Nat
  slot    : Nat
  stamp   : Nat
  width   : Nat
  outs    : List Nat
  lanes   : List (Nat × List (BitVec 32))
  yhat    : List (List (BitVec 32))
  deriving DecidableEq, Repr

/-- Bank A's wait for the answer to its page faults (R259, R404). -/
structure PageWait where
  ids     : List Nat
  since   : BitVec 64
  handle  : Nat
  /-- the faulting instruction, which raises an ordinary PAGE once a request of it has been answered FAIL (R411) -/
  pc      : BitVec 64 := 0
  level   : BitVec 2 := 0
  failed  : Bool := false
  /-- the commit budget has left out these ticks (R83) -/
  counted : Bool := false
  /-- bank A has drained and bank B is active -/
  drained : Bool := false
  /-- the wait is over and the instruction is to execute again -/
  resumed : Bool := false
  deriving DecidableEq, Repr

/-- What an instruction at a boundary waits for: something of its own, something earlier of its bank (a pending register or handle, R126; a
posted add), or a token bucket (R65). -/
inductive WaitFor where
  | itself | earlier | bucket
  deriving DecidableEq, Repr

/-- The instruction that waits at a bank's boundary (R405), for what, and since when, in time and in fabric cycles. -/
structure Waits where
  instr : Instr
  since : BitVec 64
  why   : WaitFor := .itself
  cycle : Nat := 0
  /-- what an LDACQ of host memory has loaded, while its fence goes on (R391) -/
  got   : Option (List (BitVec 8)) := none
  deriving DecidableEq, Repr

/-- What a waiting FLWAIT watches (R399): the word (its physical address / 8, or 2^60 + 2^20 core + h0 offset / 8), the value it waits
for, and whether a write has reached that value since. -/
structure FlagWatch where
  word  : Nat
  value : Nat
  met   : Bool := false
  deriving DecidableEq, Repr

/-- An NFETCH under way (R313): the status register, or 64 for the auto-fetch of a CPYN (R304), the stub, and the holders that have
refused. -/
structure NodeFetch where
  reg   : Nat
  node  : NodeReg
  tried : Nat := 0
  deriving DecidableEq, Repr

/-- How a unit is to end once its issued operations have run to their join (R81, R85, R157, R407), or once those issued beside a DONE in
its bundle have (R419). -/
inductive Leaving where
  | fault (bank : Nat) (trap : Trap)
  | done
  | victim
  | yielded
  | cancelled
  deriving DecidableEq, Repr

/-! ## Banks, clusters, cores -/

/-- The per-bank state of a slot cluster (R124), reset values by R48, R130-R133, R323, R337, R402. -/
structure Bank where
  s : SMap (BitVec 64) := []
  v : SMap (BitVec 32) := []
  p : SMap (BitVec 64) := []
  h : SMap Handle := []
  n : SMap NodeReg := []
  w : SMap (BitVec 64) := []
  lc : SMap (BitVec 64) := []
  loops : SMap LoopLevel := []
  pc : BitVec 64 := 0
  tmpl : SMap (BitVec 128) := []
  seq : BitVec 32 := 0
  wdone : BitVec 32 := 0
  tokLC : BitVec 4 := 0
  tokCS : BitVec 4 := 0
  tokCL : BitVec 4 := 0
  tokSC : BitVec 4 := 0
  level : BitVec 2 := 0
  forked : Bool := false
  issueWidth : Nat := 1
  cause : BitVec 64 := 0
  trapPc : BitVec 64 := 0
  trapInfo : BitVec 64 := 0
  fpflags : BitVec 6 := 0
  spawnNext : BitVec 32 := 0
  spawnCount : BitVec 32 := 1
  axEpsAbs : BitVec 32 := 0x3A800000
  axEpsRel : BitVec 32 := 0x3C000000
  axLr : BitVec 32 := 0x3C800000
  axBatch : BitVec 9 := 64
  axWindow : BitVec 13 := 256
  axSample : BitVec 4 := 6
  axLimit : BitVec 8 := 4
  axEnable : Bool := false
  gLimit : BitVec 4 := 15
  gStatus : BitVec 64 := 0
  binding : Option Binding := none
  /-- scalar registers marked pending, one mark per outstanding status word (R109) -/
  pend : List Nat := []
  unit : Option WorkUnit := none
  waits : Option Waits := none
  watch : Option FlagWatch := none
  /-- the gang sync bit at which the member waits (R148) -/
  joined : Option Nat := none
  /-- where the member's JOIN stands, for the resumption address of R148 -/
  joinAt : BitVec 64 := 0
  traps : List Trap := []
  latch : Option Latch := none
  walk : Option WalkRecord := none
  monitor : Option Monitor := none
  fladds : List PostedAdd := []
  /-- plain stores on their way to the L1, oldest first (R428) -/
  late : List LateStore := []
  page : Option PageWait := none
  /-- the open Vat session, and by session the register its first grant will write (R211, R216); held by member 0 -/
  session : Option VatSession := none
  vregs : List (VatSession × Nat) := []
  /-- operations set aside by a page-fault drain (R259, step 5) -/
  aside : List (QueueName × QEntry) := []
  /-- the halts of queues L, C and S at the drain (R406) -/
  halts : Bool × Bool × Bool := (false, false, false)
  nfetch : List NodeFetch := []
  /-- the issue group that took the trap in force, its width and whether it had forked: some exactly while the trap's handler runs (R406,
  R408) -/
  trapGroup : Option (Nat × Bool) := none
  /-- bits [1:0] of the address that ERET resumed at; the fetch there raises GANG when they are not 0 (R92, R408) -/
  skew : BitVec 2 := 0
  /-- the parent that a waiting NOPEN has counted its child on (R302) -/
  opening : Option NodeReg := none
  /-- a member whose group-mate runs the handler holds at its boundary (R406) -/
  held : Bool := false
  /-- the unit is ending: its members issue nothing, and what they have issued runs to its join (R81, R407) -/
  ending : Option Leaving := none
  /-- the timebase at which an instruction, wide operation or packet of the bank last moved (R416) -/
  progress : BitVec 64 := 0
  deriving DecidableEq, Repr

/-- The per-cluster state (R15, R124): the active-bank bit, the queues with their halts (R405), packet tags, accumulator. -/
structure Cluster where
  activeB : Bool := false
  qL : List QEntry := []
  qC : List QEntry := []
  qS : List QEntry := []
  haltL : Bool := false
  haltC : Bool := false
  haltS : Bool := false
  packets : SMap (Option Packet) := []
  packetNo : Nat := 0
  acc : SMap (BitVec 32) := []
  deriving DecidableEq, Repr

/-- A lease of the Vat (R211, R212): the holder's lowest cluster index and bank, the commands that may still start and the cycle
of the grant. -/
structure Lease where
  cluster : Nat
  bank    : Nat
  width   : Nat
  left    : Nat
  granted : Nat
  session : VatSession
  deriving DecidableEq, Repr

/-- The arbiter and array of a core's Vat (R211-R214, R226). -/
structure Vat where
  lease    : Option Lease := none
  /-- the requester arbitration has picked: its lowest cluster index, bank and session, and the cycle -/
  picked   : Option (Nat × Nat × VatSession × Nat) := none
  /-- sessions opened so far -/
  sessions : Nat := 0
  lastHolder : BitVec 2 := 3
  /-- the cluster index whose command occupies the array, and the cycle at which its occupancy ends -/
  running  : Option (Nat × Nat) := none
  /-- clusters whose commands have left the array and not completed, in order, with their completion cycles -/
  leaving  : List (Nat × Nat) := []
  asleep   : Bool := true
  idle     : BitVec 32 := 1024
  idleFrom : Nat := 0
  deriving DecidableEq, Repr

/-- A pending drain (R400): the units and records it still counts; `issuer` is the order number of the unit that issued it. -/
structure Drain where
  part   : Nat
  levels : BitVec 32
  before : Nat
  issuer : Nat
  deriving DecidableEq, Repr

/-- The resources of a core that its clusters share (R16). Scratchpad bytes are h0 offsets over all 24 banks. -/
structure Core where
  spad : SMap (BitVec 8) := []
  spadTags : SMap Bool := []
  /-- scratchpad words whose stored tag bit differs from the one written, by h0 offset / 8 (R246, R413) -/
  tagFlips : SMap Bool := []
  tiles : SMap (BitVec 8) := []
  tshape : SMap (BitVec 64) := []
  tab : SMap (BitVec 16) := []
  tabValid : BitVec 16 := 0
  flags : SMap Bool := []
  q : SMap (List (BitVec 64)) := []
  tagTable : SMap (Option (BitVec 64)) := []
  spfmt : SMap (BitVec 64) := []
  spFailed : BitVec 64 := 0
  /-- banks being rebuilt after their fail bit was cleared, which reads 1 until then (R248) -/
  rebuild0 : Option Nat := none
  rebuild1 : Option Nat := none
  rvf : SMap (BitVec 32) := []
  /-- RVF entries and scratchpad tag words with an uncorrectable error (R321, R413) -/
  rvfBad : SMap Bool := []
  /-- clusters whose next operation waits for the Separator, in order of arrival (R331) -/
  sepQueue : List Nat := []
  vat : Vat := {}
  drains : SMap (Option Drain) := []
  /-- keys of the surrogates cached on the core, most recent first (R355) -/
  surrogates : List Nat := []
  /-- the reservation of this core, if any: its group and the record's order number (R76) -/
  reserved : Option (Nat × Nat × Nat) := none
  deriving DecidableEq, Repr

/-! ## Partitions and jobs -/

/-- Staged writes of a partition's descriptor window (R56, R59, R229, R289, R387). -/
structure Staged where
  ctl      : Option (BitVec 64) := none
  key      : Option (BitVec 64) := none
  shareKey : Option (BitVec 64) := none
  bwDepth  : Option (BitVec 64) := none
  cxl      : SMap (Option (BitVec 64)) := []
  asid     : Option (BitVec 64) := none
  kv1Base  : Option (BitVec 64) := none
  kv1Size  : Option (BitVec 64) := none
  kv2Base  : Option (BitVec 64) := none
  kv2Size  : Option (BitVec 64) := none
  kvShape  : Option (BitVec 64) := none
  crockBase : Option (BitVec 64) := none
  crockSize : Option (BitVec 64) := none
  deriving DecidableEq, Repr

/-- An outstanding page request (R411): who waits for it. -/
structure PageRequest where
  id    : Nat
  job   : Nat
  bank  : Nat
  va    : BitVec 64
  time  : BitVec 64
  /-- what its record holds of the unit: host sequence number, where, pc, and the ids (R409) -/
  seq   : BitVec 32 := 0
  wher  : Nat := 0
  pc    : BitVec 64 := 0
  launch : Nat := 0
  graph : Nat := 0
  phase : Nat := 0
  /-- a copy's request, which a CPYR waits on (R286, R287) -/
  copy  : Bool
  /-- the walk of the copy's handle, when that walk is what failed; 0 when the engine's own walk failed -/
  walk  : Nat := 0
  deriving DecidableEq, Repr

/-- A copy's page request and its answer (R287, R411): the bank, the progress, the fields and the token register of the copy, and whether it
was answered, and FAIL. -/
structure CopyAnswer where
  bank : Nat
  progress : Nat
  fields : List Nat := []
  token : Nat := 0
  request : Nat
  answered : Bool
  failed : Bool
  deriving DecidableEq, Repr

/-- A token bucket (R65): its count as it stood at `since`. -/
structure Bucket where
  count : Int := 65536
  since : BitVec 64 := 0
  deriving DecidableEq, Repr

/-- A partition (R56-R62, R87, R295, R384, R403, R416). -/
structure Partition where
  live : Bool := false
  shareEnable : Bool := false
  vfPort : Bool := false
  vfIndex : BitVec 4 := 0
  shareId : BitVec 16 := 0
  islands : BitVec 16 := 0
  groups : BitVec 64 := 0
  key : BitVec 64 := 0
  bwHbm : BitVec 16 := 0
  bwCxl : BitVec 16 := 0
  bwYareno : BitVec 16 := 0
  bwHost : BitVec 16 := 0
  bwDepth : BitVec 8 := 16
  asidTable : BitVec 64 := 0
  cxl : SMap (BitVec 64) := []
  kv1Base : BitVec 64 := 0
  kv1Size : BitVec 32 := 0
  kv2Base : BitVec 64 := 0
  kv2Size : BitVec 32 := 0
  kvShape : BitVec 64 := 0x10800700
  crockBase : BitVec 64 := 0
  crockSize : BitVec 32 := 0
  pageLimit : BitVec 32 := 10000000
  stall : BitVec 32 := 1000000
  staged : Staged := {}
  /-- token buckets (R65): 0 hbm, 1 cxl, 2 yareno, 3 host -/
  buckets : SMap Bucket := []
  agePeriod : BitVec 24 := 1000
  ageLimit : BitVec 5 := 4
  affinityWait : BitVec 20 := 50
  preemptMargin : BitVec 5 := 8
  commitBudget : BitVec 32 := 100000
  schedPops : BitVec 32 := 0
  schedPreempts : BitVec 32 := 0
  schedReserves : BitVec 32 := 0
  kvBlockTokens : BitVec 2 := 2
  leaseDefault : BitVec 32 := 1000
  nameTest : Bool := false
  salt : BitVec 64 := 0
  collideCount : BitVec 32 := 0
  scopeMode : BitVec 2 := 1
  scopeCount : BitVec 32 := 0
  handler : BitVec 64 := 0
  /-- waiting records in order of enqueue, and the next sequence number (R72-R75) -/
  waiting : List Waiting := []
  nextOrder : Nat := 0
  /-- page requests (R411) -/
  nextReq : Nat := 1
  requests : List PageRequest := []
  answers : List CopyAnswer := []
  /-- walk records left by ended units (R395), oldest first -/
  walks : List WalkRecord := []
  deriving DecidableEq, Repr

/-- An admitted job (R45, R47). -/
structure Job where
  ctx : BitVec 64
  asid : BitVec 16
  graphLog2 : Nat
  launchLog2 : Nat
  doneOff : BitVec 64
  doneVal : BitVec 64
  seq : BitVec 32
  raise : Bool
  cancelOnFault : Bool
  deriving DecidableEq, Repr

/-! ## Creamery, Churn, memory -/

/-- States of a Creamery node (R292). -/
inductive NodeState where
  | opened | sealed | evicting | remote
  deriving DecidableEq, Repr

/-- A Creamery node (R292): what its 128-byte record holds, with its pages and the unit that opened it. -/
structure Node where
  part : Nat
  owner : Nat
  opener : Nat
  name : BitVec 128
  sigma : BitVec 64
  parent : Option Nat
  map : Nat
  pages : List Nat
  depth : BitVec 32
  state : NodeState
  cls : BitVec 2 := 0
  tier : BitVec 2
  test : Bool
  collided : Bool := false
  bcode : BitVec 2
  shape : BitVec 32
  tokens : List (BitVec 32) := []
  refs : BitVec 32 := 0
  /-- refs has been above 0 (R292, last_release) -/
  raised : Bool := false
  gen : BitVec 32
  leaseExpiry : BitVec 64 := 0
  lastRelease : BitVec 64 := 0
  deriving DecidableEq, Repr

/-- A directory entry of this device as the home of a name (R314). -/
structure DirEntry where
  key : NameKey
  holders : List Nat
  deriving DecidableEq, Repr

/-- States of a fitted region (R340), coded as AXSTAT reports them. -/
inductive ChurnState where
  | observe | train | substitute | fallback | invalid
  deriving DecidableEq, Repr

/-- A Churn region slot (R339): its key, the copied registers, the surrogate and the sample buffer. -/
structure ChurnSlot where
  part : Nat
  pa : Nat
  digest : BitVec 64
  stamp : Nat
  epsAbs : BitVec 32
  epsRel : BitVec 32
  lr : BitVec 32
  batch : Nat
  window : Nat
  sample : Nat
  limit : Nat
  ni : Nat
  no : Nat
  layers : Nat
  width : Nat
  state : ChurnState := .observe
  params : List (BitVec 32) := []
  buffer : List (List (BitVec 32) × List (BitVec 32)) := []
  steps : Nat := 0
  fallbacks : Nat := 0
  count : BitVec 32 := 0
  frames : List Nat := []
  deriving DecidableEq, Repr

/-- A capture on its way to the Churn (R343, R345), from the bank that closed the region in this fabric cycle (R432, R433). -/
structure Capture where
  bank : Nat
  time : Nat
  slot : Nat
  stamp : Nat
  samples : List (List (BitVec 32) × List (BitVec 32))
  check : Bool
  failed : Bool
  deriving DecidableEq, Repr

/-- The metadata of a line other than its tags (R269). -/
structure LineMeta where
  poison : Bool := false
  live : Bool := false
  enc : BitVec 4 := 0
  deriving DecidableEq, Repr

/-- A privacy record, or a seal record when `sealed` holds (R360): the lines it covers, the object's header and its owner. -/
structure LineRecord where
  header : Nat
  owner : Nat
  sealed : Bool
  lines : List (Nat × Nat)
  deriving DecidableEq, Repr

/-- A line under scrub (R275): what its read found, and whether a write has changed its scrub version since. -/
structure Scrub where
  line : Nat
  bad : Bool
  soft : Bool
  changed : Bool := false
  deriving DecidableEq, Repr

/-- The recorded scope and agent of a line's last synchronising access (R383). -/
structure ScopeRecord where
  scope : BitVec 3
  device : Nat := 0
  core : Nat
  deriving DecidableEq, Repr

/-- The registry that an extended algorithm is named in (R427): IANA, with the enterprise number of Zourvar. -/
inductive SpdmRegistry where
  | iana (enterprise : Nat)
  deriving DecidableEq, Repr

/-- The code of an SPDM ERROR (R427). -/
inductive SpdmError where
  | unsupportedRequest
  | invalidRequest
  deriving DecidableEq, Repr

/-- What an SPDM answer says (R427). A challenge and measurements are signed with the identity key. -/
inductive SpdmAnswer where
  | version (major minor : Nat)
  | capabilities (keyExchange sessions : Bool)
  /-- the extended algorithms: asymmetric and hash -/
  | algorithms (registry : SpdmRegistry) (asym hash : BitVec 16)
  | digest (slot : Nat) (d : BitVec 512)
  | certificate (slot : Nat) (chain : List (BitVec 8))
  | challenge (slot : Nat) (nonce : BitVec 256) (signature : List (BitVec 8))
  | measurement (block : Nat) (d : Option (BitVec 512)) (signature : List (BitVec 8))
  deriving DecidableEq, Repr

/-- An event the device reports outward: MSI-X vectors, MCTP notifications and answers, host read data (R60, R66, R425). -/
inductive Signal where
  | pfVector (portB : Bool) (vec : Nat)
  | vfVector (slot : Nat) (vec : Nat)
  | notify (code : Nat) (data : BitVec 64)
  | mctpData (data : BitVec 64)
  | mctpError
  | reply (request : String) (bytes : List (BitVec 8))
  /-- an SPDM answer with the rest of its bytes -/
  | spdm (answer : SpdmAnswer) (rest : List (BitVec 8))
  | spdmError (code : SpdmError)
  /-- an answer given over the DOE mailbox of a PF (R427) -/
  | overDoe (portB : Bool) (answer : Signal)
  | hostData (bytes : List (BitVec 8))
  | hostPoison
  | peerData (bytes : List (BitVec 8)) (tags : List Bool)
  | peerFault (code : BitVec 8)
  | probeAnswer (entries : List DirEntry)
  | forward (data : Option RemoteNode)
  | readData (data : BitVec 64)
  | register (add : Bool) (home : Nat) (key : NameKey)
  deriving DecidableEq, Repr

/-- A partition command under way (R60): the code it will report, the partitions whose VFs learn of it (R66), and what its end
still does: an island or a channel group to move (R63, R64), an APPLY with the partition it makes, a DESTROY whose nodes are dropped. `gaveUp` holds once what the command
takes from a partition has been given up: its nodes evicted and its translations revoked (R59, R64). `old` is a partition as it was before
a CREATE or APPLY; reads show its staged registers until the command ends (R56). -/
structure PartCommand where
  code : BitVec 8
  parts : List Nat := []
  old : Option (Nat × Partition) := none
  island : Option Nat := none
  group : Option Nat := none
  src : Option Nat := none
  dest : Option Nat := none
  apply : Option (Nat × Partition) := none
  destroy : Option Nat := none
  gaveUp : Bool := false
  deriving DecidableEq, Repr

/-- One entry of the RAS log (R415). -/
structure RasEntry where
  addr : BitVec 64 := 0
  source : BitVec 8 := 0
  kind : BitVec 8 := 0
  part : BitVec 8 := 0
  unit : BitVec 8 := 0
  time : BitVec 32 := 0
  deriving DecidableEq, Repr

/-- The registers of the management block and of the package (R51-R60, R238, R264, R274, R312, R415, R422, R426). -/
structure Mgmt where
  owner : BitVec 4 := 0
  handoverTarget : BitVec 4 := 0
  /-- the timebase at the owner's last CLAIM, ACCEPT or HEARTBEAT (R53) -/
  hbSince : BitVec 64 := 0
  lapseCount : BitVec 16 := 0
  refused : BitVec 32 := 0
  running : Option PartCommand := none
  partCode : BitVec 8 := 0
  cxlRange : SMap (BitVec 64) := []
  domCfg : BitVec 16 := 0
  limitW : BitVec 16 := 2600
  measuredW : BitVec 16 := 0
  domMv : SMap (BitVec 16) := []
  domMhz : SMap (BitVec 12) := []
  domState : SMap (BitVec 2) := []
  domReq : SMap (BitVec 2) := []
  critical : Bool := false
  capped : Bool := false
  hot : Bool := false
  /-- the timebase at which each cause of lowered clocks was last seen: the cap, and the temperature by die (R424) -/
  cappedAt : BitVec 64 := 0
  hotAt : SMap (BitVec 64) := []
  temps : BitVec 48 := 0
  bootSvn : BitVec 16 := 0
  bootStage : BitVec 8 := 0
  bootResult : BitVec 8 := 0
  measurements : List (BitVec 512) := []
  harvest : BitVec 64 := 0
  /-- the partition whose address space the running harvest command names -/
  harvestPart : Nat := 0
  ueTotal : BitVec 16 := 0
  ceTotal : BitVec 16 := 0
  lastSource : BitVec 8 := 0
  rasOverflow : Bool := false
  rasHead : BitVec 8 := 0
  /-- log entries that nothing has read since they were written (R415) -/
  rasUnread : SMap Bool := []
  rasLog : SMap RasEntry := []
  ueFound : BitVec 16 := 0
  ceFound : BitVec 16 := 0
  regionUs : BitVec 24 := 1000
  scrubEnable : Bool := true
  eid : BitVec 8 := 0
  spdmNegotiated : Bool := false
  deriving DecidableEq, Repr

/-- The units a part contains, loaded from its fuses (R12, R23-R30): absent cores and pseudo-channels, link widths other
than 8, absent ports, and what is attached to the CXL ports. -/
structure Fuses where
  absentCores : List Nat := []
  absentPcs : List Nat := []
  linkWidth : SMap (BitVec 4) := []
  hostPorts : BitVec 2 := 3
  cxlPorts : BitVec 10 := 0x3FF
  /-- SHAKE256 digests of the four public keys (R426) -/
  keyDigests : SMap (BitVec 512) := []
  revoked : BitVec 4 := 0
  minVersion : BitVec 16 := 0
  /-- the certificate chain of slot 0, whose leaf certifies the identity key (R427) -/
  certChain : List (BitVec 8) := []
  /-- the device's identity key, a Falcon-1024 key that the security processor derives (R427) -/
  identityKey : List (BitVec 8) := []
  /-- attached capacity of each CXL port's memory device in bytes (R264) -/
  attached : SMap Nat := []
  deriving DecidableEq, Repr

/-- What moves next when the schedule says so: a step of an agent, the next issue of a cluster, or an input from the
surroundings: a soft error in a store, or the reading of a sensor. -/
inductive Agenda where
  | event (i : Instr)
  | issue (cl : Nat)
  /-- the next issue of a cluster, whose plain store reaches the L1 later (R428) -/
  | issueLate (cl : Nat)
  /-- late store k of a bank reaches the L1, unless an earlier one goes before it (R376 case b) -/
  | drainStore (bank k : Nat)
  /-- the walk of the releasing instruction a cluster is at, made before its release (R394) -/
  | walkAhead (cl : Nat)
  /-- an uncorrectable error in the HBM sector at this address, or poison from a CXL device (R265, R271) -/
  | badSector (pa : Nat)
  /-- a corrected error in the HBM sector at this address (R266) -/
  | softSector (pa : Nat)
  /-- a corrected error, logged, in an instruction cache, L1, L2 or Crock, by its source code and island (R413, R415) -/
  | correctedError (source pa island : Nat)
  /-- an uncorrectable error in the queue body entry of a waiting record, by its order number (R413) -/
  | badQueueEntry (p order : Nat)
  /-- an uncorrectable metadata block, by one of its lines (R270) -/
  | badMetadata (line : Nat)
  /-- an uncorrectable error in the word of Crock SRAM or overflow that the next operation on this address needs (R413) -/
  | badCrock (pa : Nat)
  /-- an uncorrectable error in a dirty line of an L1 or, with the flag, of the L2 slice of an island (R414, R415) -/
  | badDirtyLine (line : Nat) (l2 : Bool) (island : Nat)
  /-- a home evicts the directory entry of a line for lack of room (R382) -/
  | dropEntry (line : Nat)
  /-- the SRAM of a die's Crocks and a partition's overflow areas on it fill up, or have room again (R387) -/
  | crockFull (die part : Nat) (full : Bool)
  /-- the stored scratchpad byte of a core changes to this value (R247) -/
  | flipScratchpad (core off : Nat) (b : BitVec 8)
  /-- the stored tag of this word of a core's scratchpad flips (R246) -/
  | flipSpadTag (core word : Nat)
  /-- an uncorrectable error in an entry of a core's RVF (R321) -/
  | badRvf (core entry : Nat)
  /-- another home device comes to hold this entry for its name (R314) -/
  | peerEntry (e : DirEntry)
  /-- a host poisons or fails its own memory's answers at this line (R228) -/
  | badHostLine (line : Nat)
  /-- the host gives a function slot's region its host physical address, which vf_mbox then holds (R67) -/
  | mapMailbox (slot : Nat) (pa : BitVec 64)
  /-- the host reads or writes 8 bytes of a VF's BAR0 (R66, R67, R411) -/
  | vfBarRead (slot off : Nat)
  | vfBarWrite (slot off : Nat) (w : BitVec 64)
  /-- the driver reads a register of the management block through a PF (R51) -/
  | pfRead (portB : Bool) (off : Nat)
  /-- an SPDM request arrives through the DOE mailbox of a PF (R427) -/
  | doe (portB : Bool) (i : Instr)
  /-- the host reads or writes an entry of a VF's MSI-X table (R66) -/
  | msixRead (slot vec : Nat)
  | msixWrite (slot vec : Nat) (w : BitVec 128)
  deriving DecidableEq, Repr

/-- What happened to the word that has just issued in a gang, for the step that issues the bundle (R94). -/
inductive Note where
  | none
  | stalled
  | raised (t : Trap)
  deriving DecidableEq, Repr

/-- The state of the package. The model's own fields come last. -/
structure State where
  banks : SMap Bank := []
  clusters : SMap Cluster := []
  cores : SMap Core := []
  parts : SMap Partition := []
  /-- admitted jobs by partition x 64 + slot -/
  jobs : SMap (Option Job) := []
  /-- sharing keys by share_id (R71) -/
  shareKeys : SMap (BitVec 64) := []
  /-- memory by physical address (R228), tags by physical address / 8 (R34) -/
  mem : List Host.Cell := []
  tags : SMap Bool := []
  /-- line metadata by line address / 128 (R269), liveness by group x 8192 + 1 MiB region (R273) -/
  lineMeta : SMap LineMeta := []
  liveRegions : SMap Bool := []
  badSectors : SMap Bool := []
  badMetaBlocks : SMap Bool := []
  /-- sectors with an error the code corrects (R266, R275) -/
  softSectors : SMap Bool := []
  badHost : SMap Bool := []
  /-- words whose entry in a Crock has an uncorrectable error (R413) -/
  badCrock : SMap Bool := []
  /-- the SRAM of a die's Crocks and a partition's overflow areas there are full, by die x 16 + partition (R387); the spec gives no entry
  sizes, so the schedule says when (log 51) -/
  crockFull : SMap Bool := []
  /-- lines under scrub, at most four a stack (R275) -/
  scrubs : List Scrub := []
  /-- 64 KiB frames with a written record (R238) -/
  written : SMap Bool := []
  records : List LineRecord := []
  scopes : SMap (Option ScopeRecord) := []
  nodes : SMap (Option Node) := []
  /-- generation of each record address (R292) -/
  gens : SMap (BitVec 32) := []
  /-- indexed names with the node's record address (R297) -/
  index : List (BitVec 128 × Nat) := []
  directory : List DirEntry := []
  /-- what the other home devices of the domain hold, for the probes this device sends them (R301, R314): an input -/
  peerEntries : List DirEntry := []
  /-- region slots by die x 64 + slot, captures by die (R339, R343) -/
  churn : SMap (Option ChurnSlot) := []
  captures : SMap (List Capture) := []
  mgmt : Mgmt := {}
  fuses : Fuses := {}
  /-- the timebase (R21) -/
  now : BitVec 64 := 0
  /-- core power is on (R424, R426) -/
  powered : Bool := true
  signals : List Signal := []
  /-- vf_mbox by function slot, and the MSI-X tables by slot x 4 + vector (R66, R67) -/
  vfMbox : SMap (BitVec 64) := []
  msix : SMap (BitVec 128) := []
  /-- function slots whose notify line the host has written since the device last acted on it (R68) -/
  notified : SMap Bool := []
  /-- model: arithmetic cycles, fabric cycles, steps taken, free values drawn, XLATEs issued, units started -/
  cycles : Nat := 0
  fabric : Nat := 0
  stepNo : Nat := 0
  freeNo : Nat := 0
  walkNo : Nat := 0
  unitNo : Nat := 0
  /-- model: the schedule, and the cluster that issues when the schedule is empty -/
  agenda : List Agenda := []
  focus : Nat := 0
  note : Note := .none
  deriving DecidableEq, Repr

/-- The state after reset: every field at the value its declaration gives (INVENTORY.md, State). -/
def State.reset : State := {}

/-- Why the machine stops with a fault: for no reason, since the spec goes on in every state. With core power removed (R424) a step moves
nothing but what stands outside it. -/
inductive Fault where
  deriving DecidableEq, Repr

/-- Why an instruction has no meaning in the model. -/
inductive Refusal where
  /-- the instruction has no meaning yet: raised by exec's arms. Safe. -/
  | notModelled (mnemonic : String)
  deriving DecidableEq, Repr

end Sys2Proof.Machine
end

