-- ==== Sys2Proof/Machine/Codes.lean ====
section
/-! DEFINITION. The fault codes of R401 and how a bank's pending fault is written. -/

namespace Sys2Proof.Machine

abbrev Code := BitVec 8

def cILLEGAL : Code := 0x01
def cPRIV : Code := 0x02
def cTRAP : Code := 0x03
def cHANDLE_INVALID : Code := 0x04
def cHANDLE_BOUNDS : Code := 0x05
def cPERM : Code := 0x06
def cPAGE : Code := 0x07
def cALIGN : Code := 0x08
def cESCAPE : Code := 0x09
def cPRIVATE_ACCESS : Code := 0x0A
def cSEALED_WRITE : Code := 0x0B
def cTAG : Code := 0x0C
def cWALK_OVERFLOW : Code := 0x0D
def cSCOPE_MISMATCH : Code := 0x0E
def cTOKEN : Code := 0x0F
def cTEMPLATE : Code := 0x10
def cQUEUE : Code := 0x11
def cLEASE : Code := 0x12
def cTABLE : Code := 0x13
def cRULE_DEPTH : Code := 0x14
def cRULE_TOPOLOGY : Code := 0x15
def cRVF_OVERFLOW : Code := 0x16
def cNODE : Code := 0x17
def cCOLLIDE : Code := 0x18
def cPOISON : Code := 0x19
def cUE_DEFERRED : Code := 0x1A
def cMDUE : Code := 0x1B
def cCOMMIT_BUDGET : Code := 0x1C
def cGANG : Code := 0x1D
def cAX : Code := 0x1E
def cCOPY : Code := 0x1F
def cWATCHDOG : Code := 0x20

/-- A precise fault with its datum (R401). -/
def precise (code : Code) (info : BitVec 64) : Trap := { code := code, info := info }

end Sys2Proof.Machine
end

