-- ==== Sys2Proof/Machine/Memory.lean ====
section
/-! DEFINITION. Physical memory (R228, R262-R273): bytes, reference tags, line metadata, liveness, the records of private and
sealed lines, and the accessors of the numbered parts of the state. -/

namespace Sys2Proof.Machine

/-! ## Numbered parts -/

def State.bank (s : State) (b : Nat) : Bank := SMap.get {} s.banks b
def State.setBank (s : State) (b : Nat) (x : Bank) : State := { s with banks := SMap.set {} s.banks b x }
def State.cluster (s : State) (c : Nat) : Cluster := SMap.get {} s.clusters c
def State.setCluster (s : State) (c : Nat) (x : Cluster) : State := { s with clusters := SMap.set {} s.clusters c x }
def State.core (s : State) (n : Nat) : Core := SMap.get {} s.cores n
def State.setCore (s : State) (n : Nat) (x : Core) : State := { s with cores := SMap.set {} s.cores n x }
def State.part (s : State) (p : Nat) : Partition := SMap.get {} s.parts p
def State.setPart (s : State) (p : Nat) (x : Partition) : State := { s with parts := SMap.set {} s.parts p x }
def State.job (s : State) (p j : Nat) : Option Job := SMap.get none s.jobs (p * 64 + j)
def State.setJob (s : State) (p j : Nat) (x : Option Job) : State := { s with jobs := SMap.set none s.jobs (p * 64 + j) x }
def State.node (s : State) (r : Nat) : Option Node := SMap.get none s.nodes r
def State.slot (s : State) (die k : Nat) : Option ChurnSlot := SMap.get none s.churn (die * 64 + k)
def State.setSlot (s : State) (die k : Nat) (x : Option ChurnSlot) : State :=
  { s with churn := SMap.set none s.churn (die * 64 + k) x }

/-- The active bank of a cluster (R125). -/
def State.activeBank (s : State) (c : Nat) : Nat := 2 * c + (if (s.cluster c).activeB then 1 else 0)

/-- The timebase in lease ticks of 1 µs (R21). -/
def State.tick (s : State) : Nat := s.now.toNat / 1000

/-- Report an event outward. -/
def State.signal (s : State) (e : Signal) : State := { s with signals := s.signals ++ [e] }

/-! ## Present units (R12, R18, R30) -/

def State.corePresent (s : State) (n : Nat) : Bool := decide (n < 192) && !s.fuses.absentCores.contains n

/-- Island of a core (R10, R14): core d x 48 + k is in island d x 4 + k / 12. -/
def islandOf (core : Nat) : Nat := core / 48 * 4 + core % 48 / 12

/-- Die of a core (R10). -/
def dieOf (core : Nat) : Nat := core / 48

/-- Number of present pseudo-channels of channel group g (R18). -/
def State.groupPcs (s : State) (g : Nat) : Nat :=
  ((List.range 8).filter (fun i => !s.fuses.absentPcs.contains (8 * g + i))).length

/-- One CXL port's range (R264): 0 when it is not present. -/
def State.cxlRangeOf (s : State) (i : Nat) : BitVec 64 := SMap.get 0 s.mgmt.cxlRange i

/-- T of R264. -/
def tierBase : Nat := 0x100000000000
def peerBase : Nat := 0x1000000000000
def hostBase : Nat := 0x8000000000000

/-- Kinds of physical memory (R228). -/
inductive MemKind where
  | hbm | tier | peer | host | nothing
  deriving DecidableEq, Repr

def memKind (pa : Nat) : MemKind :=
  if pa < 2 ^ 39 then .hbm
  else if tierBase ≤ pa ∧ pa < tierBase + 2 ^ 44 then .tier
  else if peerBase ≤ pa ∧ pa < peerBase + 256 * 2 ^ 40 then .peer
  else if hostBase ≤ pa ∧ pa < hostBase + 2 ^ 51 then .host
  else .nothing

def isHbm (pa : Nat) : Bool := decide (memKind pa = MemKind.hbm)

/-- Whether tier offset x lies in a present range (R264). -/
def State.tierPresent (s : State) (x : Nat) : Bool :=
  (List.range 10).any (fun i =>
    let r := s.cxlRangeOf i
    bit r 0 && decide (bits r 32 16 * 2 ^ 30 ≤ x) && decide (x < (bits r 32 16 + bits r 16 16) * 2 ^ 30))

/-- Number of devices in the domain and this device's number (R312). -/
def State.domainSize (s : State) : Nat := bits s.mgmt.domCfg 0 8 + 1
def State.domainIndex (s : State) : Nat := bits s.mgmt.domCfg 8 8

/-- Some Yareno link is present: traffic never uses an absent one (R27, R30). -/
def State.linked (s : State) : Bool := (List.range 16).any (fun i => SMap.get 8 s.fuses.linkWidth i != 0)

/-- The stack of an HBM address (R262). -/
def stackOf (pa : Nat) : Nat := pa / 2 ^ 36

/-- Whether an address has memory behind it (R228, R262, R264). A peer that no link reaches counts as absent, and so does a peer range whose n
is this device's own number: R228 and R312 do not say (log 53). -/
def State.behind (s : State) (pa : Nat) : Bool :=
  match memKind pa with
  | .hbm => decide (pa % 2 ^ 33 < s.groupPcs (pa / 2 ^ 33) * 2 ^ 30)
  | .tier => s.tierPresent (pa - tierBase)
  | .peer =>
    let n := (pa - peerBase) / 2 ^ 40
    s.linked && decide (n < s.domainSize) && decide (n ≠ s.domainIndex) && decide ((pa - peerBase) % 2 ^ 40 < 2 ^ 39)
  | .host => true
  | .nothing => false

/-! ## The mailbox (R67, R263) -/

/-- Physical address of the mailbox region of a function slot. Where the group has fewer than 128 MiB the spec's range has no place; the
formula is then truncated at 0, and a region without memory behind it keeps nothing (log 53). -/
def State.regionBase (s : State) (slot : Nat) : Nat :=
  let g := if slot < 16 then 0 else 32
  g * 2 ^ 33 + s.groupPcs g * 2 ^ 30 - 2 ^ 27 + slot % 16 * 2 ^ 23

/-- The function slot whose region holds an HBM address, if it lies in the mailbox. -/
def State.mailboxSlot (s : State) (pa : Nat) : Option Nat :=
  let g := pa / 2 ^ 33
  if (g = 0 ∨ g = 32) ∧ s.groupPcs g * 2 ^ 30 - 2 ^ 27 ≤ pa % 2 ^ 33 ∧ pa % 2 ^ 33 < s.groupPcs g * 2 ^ 30 then
    some ((pa % 2 ^ 33 - (s.groupPcs g * 2 ^ 30 - 2 ^ 27)) / 2 ^ 23 + (if g = 32 then 16 else 0))
  else none

/-- Function slot of a partition's VF (R66). -/
def Partition.functionSlot (p : Partition) : Nat := (if p.vfPort then 16 else 0) + p.vfIndex.toNat

/-- A pd_cxl_k range of a partition, as [lo, hi) of tier offsets (R59). -/
def Partition.cxlRange (p : Partition) (k : Nat) : Nat × Nat :=
  let r := SMap.get 0 p.cxl k
  (bits r 0 16 * 2 ^ 30, (bits r 0 16 + bits r 32 16) * 2 ^ 30)

/-- Whether a tier offset lies in a range granted to the partition (R59). -/
def Partition.grants (p : Partition) (x : Nat) : Bool :=
  (List.range 4).any (fun k => decide ((p.cxlRange k).1 ≤ x) && decide (x < (p.cxlRange k).2))

/-- Whether the partition's tables and translations may name an HBM or tier address (R58); host and peer frames are not checked. -/
def State.partHolds (s : State) (p : Partition) (pa : Nat) : Bool :=
  match memKind pa with
  | .hbm =>
    match s.mailboxSlot pa with
    | some sl => decide (sl = p.functionSlot)
    | none => bit p.groups (pa / 2 ^ 33)
  | .tier => p.grants (pa - tierBase)
  | _ => false

/-- The partition an HBM or tier line belongs to (R414). -/
def State.partOfPa (s : State) (pa : Nat) : Option Nat :=
  (List.range 16).find? (fun p =>
    (s.part p).live && (match memKind pa with
      | .hbm => bit (s.part p).groups (pa / 2 ^ 33)
      | .tier => (s.part p).grants (pa - tierBase)
      | _ => false))

/-! ## Bytes and tags -/

/-- A byte of physical memory. A host address is one byte of one host memory, whichever of ports A and B leads there: R58 and R228 do not say
whether the two hosts share theirs (log 67). -/
def State.byte (s : State) (pa : Nat) : Byte := SMap.get 0 s.mem pa
def State.bytes (s : State) (pa : Nat) : Nat → List Byte
  | 0 => []
  | n + 1 => s.byte pa :: s.bytes (pa + 1) n
/-- The n-byte little-endian value at a physical address. -/
def State.peek (s : State) (pa n : Nat) : Nat := ofBytes (s.bytes pa n)
def State.peek64 (s : State) (pa : Nat) : BitVec 64 := BitVec.ofNat 64 (s.peek pa 8)
/-- The reference tag of the 8-byte word holding pa; host memory carries none (R34). -/
def State.tagAt (s : State) (pa : Nat) : Bool := SMap.get false s.tags (pa / 8)
def State.setTag (s : State) (pa : Nat) (t : Bool) : State :=
  { s with tags := SMap.set false s.tags (pa / 8) (if memKind pa = .host then false else t) }

/-- The canonical form of memory: addresses strictly rising, and no entry equal to what an unlisted address reads as (log 1). -/
def Memory.wf (m : List Host.Cell) : Bool := SMap.wf 0 m

def pokeCells (m : List Host.Cell) : List (Nat × Byte) → List Host.Cell
  | [] => m
  | (a, b) :: cs => pokeCells (SMap.set 0 m a b) cs

/-! ## Encodings (R267) -/

def fitsSigned (x : Int) (n : Nat) : Bool := decide (-(2 ^ (n - 1) : Nat) ≤ x) && decide (x < (2 ^ (n - 1) : Nat))

/-- The encoding the base die stores a line in: fewest sectors, then the lowest code. Deltas are signed differences modulo the
word's width (log 22). -/
def encodingOf (w8 w4 : List Nat) : BitVec 4 :=
  let d8 := w8.map (fun e => sextNat (e + 2 ^ 64 - w8.headD 0) 64)
  let d4 := w4.map (fun e => sextNat (e + 2 ^ 32 - w4.headD 0) 32)
  if w8.all (· == 0) then 0
  else if w8.all (· == w8.headD 0) then 1
  else if d8.all (fitsSigned · 8) then 2
  else if d8.all (fitsSigned · 16) then 3
  else if d4.all (fitsSigned · 8) then 4
  else if d4.all (fitsSigned · 16) then 5
  else if d8.all (fitsSigned · 32) then 6
  else 7

/-- Sectors stored by an encoding (R267). -/
def storedSectors (e : BitVec 4) : Nat :=
  match e.toNat with
  | 0 => 0 | 1 => 1 | 2 => 1 | 3 => 2 | 4 => 2 | 5 => 3 | 6 => 3 | _ => 4

def State.lineEncoding (s : State) (line : Nat) : BitVec 4 :=
  encodingOf ((List.range 16).map (fun i => s.peek (128 * line + 8 * i) 8))
    ((List.range 32).map (fun i => s.peek (128 * line + 4 * i) 4))

def State.lineInfo (s : State) (line : Nat) : LineMeta := SMap.get {} s.lineMeta line
def State.setLine (s : State) (line : Nat) (m : LineMeta) : State := { s with lineMeta := SMap.set {} s.lineMeta line m }

/-- The 1 MiB region of an HBM address is live (R273); the region number is group x 8192 + o[32:20]. -/
def State.liveAt (s : State) (pa : Nat) : Bool := SMap.get false s.liveRegions (pa / 2 ^ 20)

/-- The lines a byte range touches. -/
def linesOf (pa n : Nat) : List Nat :=
  if n = 0 then [] else (List.range ((pa + n - 1) / 128 - pa / 128 + 1)).map (· + pa / 128)

/-! ## Writing -/

/-- Free the region slots whose span lies in a frame that is written (R352), before the write is performed. -/
def invalidateFrames (frames : List Nat) : SMap (Option ChurnSlot) → SMap (Option ChurnSlot)
  | [] => []
  | (k, none) :: m => (k, none) :: invalidateFrames frames m
  | (k, some c) :: m =>
    if c.frames.any frames.contains then invalidateFrames frames m
    else (k, some c) :: invalidateFrames frames m

/-- Mark every monitor on the lines as hit (R396). -/
def hitMonitors (lines : List Nat) : SMap Bank → SMap Bank
  | [] => []
  | (k, b) :: m =>
    (k, match b.monitor with
        | some mo => if lines.contains mo.line then { b with monitor := some { mo with hit := true } } else b
        | none => b) :: hitMonitors lines m

/-- A write to the word that an FLWAIT watches ends its wait when the value it leaves there is large enough (R399). -/
def tellWatches (words : List Nat) (value : Nat → Nat) : SMap Bank → SMap Bank
  | [] => []
  | (k, b) :: m =>
    (k, match b.watch with
        | some x => if words.contains x.word && decide (x.value ≤ value x.word) then { b with watch := some { x with met := true } } else b
        | none => b) :: tellWatches words value m

def setTags (t : SMap Bool) (v : Bool) : List Nat → SMap Bool
  | [] => t
  | w :: ws => setTags (SMap.set false t w v) v ws

/-- 8-byte words touched by cells. -/
def wordsOf (cells : List (Nat × Byte)) : List Nat := dedupNat (cells.map (fun c => c.1 / 8))
def cellLines (cells : List (Nat × Byte)) : List Nat := dedupNat (cells.map (fun c => c.1 / 128))

/-- 1 MiB regions of HBM that cells touch (R273). -/
def hbmRegions (cells : List (Nat × Byte)) : List Nat :=
  dedupNat ((cells.filter (fun (c : Nat × Byte) => isHbm c.1)).map (fun (c : Nat × Byte) => c.1 / 2 ^ 20))

/-- A first write to regions that are not live: every line takes zero metadata with fresh check codes, and the regions are live (R273). -/
def State.wakeRegions (s : State) : List Nat → State
  | [] => s
  | r :: rs =>
    if SMap.get false s.liveRegions r then s.wakeRegions rs
    else { s with
      liveRegions := SMap.set false s.liveRegions r true
      lineMeta := SMap.clear (8192 * r) (8192 * r + 8192) s.lineMeta
      tags := SMap.clear (131072 * r) (131072 * r + 131072) s.tags
      badMetaBlocks := SMap.clear (8192 * r) (8192 * r + 8192) s.badMetaBlocks
      badSectors := SMap.clear (32768 * r) (32768 * r + 32768) s.badSectors
      softSectors := SMap.clear (32768 * r) (32768 * r + 32768) s.softSectors }.wakeRegions rs

/-- The scrub version of lines that are written is incremented (R275). -/
def changeScrubs (lines : List Nat) (xs : List Scrub) : List Scrub :=
  xs.map (fun x => if lines.contains x.line then { x with changed := true } else x)

/-- Metadata of the written HBM lines: live, and encoded anew (R267) but for those that stay RAW. -/
def State.sealLines (s : State) (raw : List Nat) : List Nat → State
  | [] => s
  | l :: ls =>
    let s := if memKind (128 * l) = .hbm then
        s.setLine l { (s.lineInfo l) with live := true, enc := if raw.contains l then 7 else s.lineEncoding l }
      else s
    s.sealLines raw ls

/-- Sectors that a write to a line writes anew: those it covers in whole, or all four when it reads the line first (R266). -/
def State.writtenSectors (s : State) (cells : List (Nat × Byte)) (line : Nat) : List Nat :=
  let covered := (List.range 4).filter (fun k => (List.range 32).all (fun i => cells.any (fun c => decide (c.1 = 128 * line + 32 * k + i))))
  let touched := (List.range 4).filter (fun k => cells.any (fun c => decide (c.1 / 32 = 4 * line + k)))
  if (s.lineInfo line).enc = 7 ∧ touched.all covered.contains then covered.map (4 * line + ·) else (List.range 4).map (4 * line + ·)

/-- Lines that stay RAW under a write: RAW lines of which it covers some sectors in whole and touches no other; the base die compresses only
where it has read the line (R266). -/
def State.rawLines (s : State) (cells : List (Nat × Byte)) (lines : List Nat) : List Nat :=
  lines.filter (fun l => decide ((s.lineInfo l).enc = 7) && decide ((s.writtenSectors cells l).length < 4))

/-- Errors of sectors that are written anew are gone. -/
def State.freshSectors (s : State) (cells : List (Nat × Byte)) (lines : List Nat) : State :=
  if s.badSectors.isEmpty && s.softSectors.isEmpty then s
  else
    let ks := lines.flatMap (s.writtenSectors cells)
    { s with badSectors := setTags s.badSectors false ks, softSectors := setTags s.softSectors false ks }

/-- Perform a write of bytes at their home: region slots are invalidated, a fresh region becomes live (R273), tags of the words
are cleared (R35), metadata, scrub versions and written records follow (R238, R269, R275), monitors and waits on the words see it
(R396, R399). -/
def State.store (s : State) (cells : List (Nat × Byte)) : State :=
  let lines := cellLines cells
  let frames := dedupNat (cells.map (fun c => c.1 / 65536))
  let s := s.wakeRegions (hbmRegions cells)
  let raw := s.rawLines cells lines
  let s := s.freshSectors cells lines
  let s := { s with
    churn := invalidateFrames frames s.churn
    banks := hitMonitors lines s.banks
    mem := pokeCells s.mem cells
    tags := setTags s.tags false (wordsOf cells)
    scrubs := changeScrubs lines s.scrubs
    written := setTags s.written true (frames.filter (fun f => isHbm (f * 65536) || decide (memKind (f * 65536) = MemKind.tier))) }
  let s := { s with banks := tellWatches (wordsOf cells) (fun w => s.peek (8 * w) 8) s.banks }
  s.sealLines raw lines

/-- Perform a write of n little-endian bytes. -/
def State.poke (s : State) (pa n v : Nat) : State := s.store (cellsAt pa (toBytes n v))

/-- Perform a write of an 8-byte word and its tag together (R36). -/
def State.pokeTagged (s : State) (pa : Nat) (v : BitVec 64) (t : Bool) : State := (s.poke pa 8 v.toNat).setTag pa t

/-- A write of the whole line clears its poison (R271). -/
def State.clearPoison (s : State) : List Nat → State
  | [] => s
  | l :: ls => (s.setLine l { (s.lineInfo l) with poison := false }).clearPoison ls

/-- Lines of which the cells cover all 128 bytes. -/
def wholeLines (cells : List (Nat × Byte)) : List Nat :=
  (cellLines cells).filter (fun l => (List.range 128).all (fun i => cells.any (fun c => decide (c.1 = 128 * l + i))))

/-! ## The RAS log (R413, R415) -/

/-- Log an event. The unit is the stack for sources 7 and 8, the island for what lies in an island, and open for the rest (log 8). An
entry that nothing has read is lost when the log comes round to it. -/
def State.ras (s : State) (addr : Nat) (source kind : Nat) (part : Option Nat) (island : Option Nat := none) : State :=
  let m := s.mgmt
  let k := m.rasHead.toNat % 128
  let unit : Byte :=
    if source = 7 ∨ source = 8 then BitVec.ofNat 8 (stackOf addr)
    else match island with | some i => BitVec.ofNat 8 i | none => Config.rasUnit s.freeNo
  let e : RasEntry := { addr := BitVec.ofNat 64 addr, source := BitVec.ofNat 8 source, kind := BitVec.ofNat 8 kind,
                        part := (match part with | some p => BitVec.ofNat 8 p | none => 0xFF), unit := unit,
                        time := BitVec.ofNat 32 (s.now.toNat / 1024) }
  let s := { s with freeNo := s.freeNo + 1, mgmt := { m with
      rasLog := SMap.set {} m.rasLog k e
      rasUnread := SMap.set false m.rasUnread k true
      rasOverflow := m.rasOverflow || SMap.get false m.rasUnread k
      rasHead := m.rasHead + 1
      lastSource := BitVec.ofNat 8 source
      ueTotal := if kind = 1 then satInc m.ueTotal else m.ueTotal
      ceTotal := if kind = 0 then satInc m.ceTotal else m.ceTotal } }
  if kind = 1 then s.signal (.notify 5 e.addr) else s

/-! ## Errors a request meets (R270, R271, R273) -/

/-- The lines of the metadata block that holds a line (R270): 32 consecutive slots of its pseudo-channel. -/
def State.blockLines (s : State) (line : Nat) : List Nat :=
  let g := line / 2 ^ 26
  let p := s.groupPcs g
  let l := line % 2 ^ 26
  if p = 0 then [] else
    (List.range 32).map (fun i => g * 2 ^ 26 + ((l / p / 32 * 32 + i) * p + l % p))

/-- The lines of a block that lie in live regions are poisoned (R270); a region that is not live holds no poison (R273). -/
def State.poisonBlock (s : State) : List Nat → State
  | [] => s
  | l :: ls =>
    if !s.liveAt (128 * l) then s.poisonBlock ls
    else
      let s := s.setLine l { poison := true, live := true, enc := 7 }
      { s with tags := SMap.clear (16 * l) (16 * l + 16) s.tags }.poisonBlock ls

/-- The sectors the base die reads for a request that wants some: a compressed line is read in all its stored sectors (R268). -/
def State.readSectors (s : State) (line : Nat) (wanted : List Nat) : List Nat :=
  if (s.lineInfo line).enc = 7 then wanted else List.range (storedSectors (s.lineInfo line).enc)

/-- What a request on one line that reads some of its sectors meets: MDUE with the block rewritten, POISON from a poisoned line or an
uncorrectable sector, poison of host memory, or nothing. An uncorrectable sector also sets poison = 1, under a read as the rule says and
under a partial write, where the rule leaves it open (log 22). -/
def State.lineFault (s : State) (line : Nat) (sectors : List Nat) (wholeWrite : Bool) : State × Option Code :=
  let pa := 128 * line
  match memKind pa with
  | .hbm =>
    if !s.liveAt pa then (s, none)
    else if (s.blockLines line).any (fun l => SMap.get false s.badMetaBlocks l) then
      let ls := s.blockLines line
      let s := { s with badMetaBlocks := setTags s.badMetaBlocks false ls }
      ((s.poisonBlock ls).ras pa 8 1 (s.partOfPa pa), some cMDUE)
    else if wholeWrite then (s, none)
    else if (s.lineInfo line).poison then (s, some cPOISON)
    else if sectors.any (fun k => SMap.get false s.badSectors (4 * line + k)) then
      let s := { s with badSectors := SMap.clear (4 * line) (4 * line + 4) s.badSectors }
      ((s.setLine line { (s.lineInfo line) with poison := true }).ras pa 7 1 (s.partOfPa pa), some cPOISON)
    else (s, none)
  | .tier => if (s.lineInfo line).poison && !wholeWrite then (s, some cPOISON) else (s, none)
  | .host => if SMap.get false s.badHost line then (s, some cPOISON) else (s, none)
  | _ => (s, none)

/-- Sectors of a line that a byte range needs (R268). -/
def sectorsIn (line pa n : Nat) : List Nat :=
  (List.range 4).filter (fun k => decide (128 * line + 32 * k < pa + n) && decide (pa < 128 * line + 32 * k + 32))

/-- What a read of a byte range meets. -/
def State.readFault (s : State) (pa n : Nat) : State × Option Code :=
  (linesOf pa n).foldl (fun (r : State × Option Code) l =>
    match r.2 with
    | some _ => r
    | none => r.1.lineFault l (r.1.readSectors l (sectorsIn l pa n)) false) (s, none)

/-- What a cached read of a byte range meets: the fill asks for all four sectors of each line (R268). -/
def State.fillFault (s : State) (pa n : Nat) : State × Option Code :=
  if n = 0 then (s, none) else s.readFault (pa / 128 * 128) (128 * (linesOf pa n).length)

/-- The part [lo, hi) of a byte range that lies in a line. -/
def partIn (line pa n : Nat) : Nat × Nat := (Nat.max pa (128 * line), Nat.min (pa + n) (128 * line + 128))

/-- The sectors that a write of a byte range reads first (R266): none of a RAW line where it covers whole sectors, else those stored. -/
def State.mergedSectors (s : State) (line pa n : Nat) : List Nat :=
  let r := partIn line pa n
  if (s.lineInfo line).enc = 7 ∧ r.1 % 32 = 0 ∧ r.2 % 32 = 0 then [] else s.readSectors line [0, 1, 2, 3]

/-- What a write of a byte range meets (R266, R271). -/
def State.writeFault (s : State) (pa n : Nat) : State × Option Code :=
  (linesOf pa n).foldl (fun (r : State × Option Code) l =>
    match r.2 with
    | some _ => r
    | none => r.1.lineFault l (r.1.mergedSectors l pa n) (decide (pa ≤ 128 * l) && decide (128 * l + 128 ≤ pa + n))) (s, none)

/-- Write bytes line by line: a line answered POISON or MDUE is not written, the others are (R270, R271). The first code is told. -/
def State.storeByLine (s : State) (pa : Nat) (bs : List Byte) : State × Option Code :=
  (linesOf pa bs.length).foldl (fun (r : State × Option Code) l =>
    let p := partIn l pa bs.length
    let cells := cellsAt p.1 ((bs.drop (p.1 - pa)).take (p.2 - p.1))
    match r.1.writeFault p.1 (p.2 - p.1) with
    | (s, some c) => (s, match r.2 with | some d => some d | none => some c)
    | (s, none) => ((s.store cells).clearPoison (wholeLines cells), r.2)) (s, none)

/-! ## Requests of device agents (R270, R271)

An agent's write that is answered POISON or MDUE is lost, and its read then takes a free value (log 52). -/

/-- Write bytes for a device agent. -/
def State.agentStore (s : State) (pa : Nat) (bs : List Byte) : State := if s.behind pa then (s.storeByLine pa bs).1 else s

/-- Read n bytes for a device agent. -/
def State.agentRead (s : State) (pa n : Nat) : State × Nat :=
  if !s.behind pa then ({ s with freeNo := s.freeNo + 1 }, Config.agentWord s.freeNo % 2 ^ (8 * n))
  else match s.fillFault pa n with
    | (s, none) => (s, s.peek pa n)
    | (s, some _) => ({ s with freeNo := s.freeNo + 1 }, Config.agentWord s.freeNo % 2 ^ (8 * n))

/-! ## Recorded scope (R382, R383) -/

/-- The record of a line's last synchronising access (R383). -/
def State.scopeAt (s : State) (line : Nat) : Option ScopeRecord := SMap.get none s.scopes line

/-- The record becomes an agent's access at a scope (R383). -/
def State.recordScope (s : State) (line : Nat) (scope : BitVec 3) (agent : Nat × Nat) : State :=
  { s with scopes := SMap.set none s.scopes line (some { scope := scope, device := agent.1, core := agent.2 }) }

/-- The number that records give the device agents of R359, which belong to no core (log 24). -/
def agentCore : Nat := 1000

/-! ## Private, published and sealed lines (R360-R362) -/

def LineRecord.covers (r : LineRecord) (line : Nat) : Bool :=
  r.lines.any (fun x => decide (x.1 ≤ line) && decide (line < x.1 + x.2))

/-- A byte range lies partly in a line that is private to a core other than `core`. -/
def State.foreignPrivate (s : State) (core : Option Nat) (pa n : Nat) : Bool :=
  s.records.any (fun r => !r.sealed && decide (core ≠ some r.owner) && (linesOf pa n).any r.covers)

/-- A byte range touches a SEALED object (R35, R360). -/
def State.sealedAt (s : State) (pa n : Nat) : Bool :=
  s.records.any (fun r => r.sealed && (linesOf pa n).any r.covers)

/-- A byte range touches a word that holds a tagged header word (R35). -/
def State.headerAt (s : State) (pa n : Nat) : Bool :=
  (List.range ((pa + n - 1) / 8 - pa / 8 + 1)).any (fun i =>
    let a := 8 * (pa / 8 + i)
    s.tagAt a && decide (s.peek a 1 % 16 = 0xF))

/-- The object checks of R362 on a read or write by a core. -/
def State.objectFault (s : State) (core : Option Nat) (pa n : Nat) (write : Bool) : Option Code :=
  if s.foreignPrivate core pa n then some cPRIVATE_ACCESS
  else if write && s.sealedAt pa n then some cSEALED_WRITE
  else if write && decide (n ≠ 0) && s.headerAt pa n then some cTAG
  else none

/-- A line is private (R360): its accesses cause no coherence traffic and never mismatch (R383). -/
def State.privateLine (s : State) (line : Nat) : Bool := s.records.any (fun r => !r.sealed && r.covers line)

/-- An access of this device leaves its record (R383): one that has been judged, or a device agent's, which never mismatches (R359). -/
def State.agentSync (s : State) (pa : Nat) (scope : BitVec 3) (core : Nat) : State :=
  if s.privateLine (pa / 128) then s else s.recordScope (pa / 128) scope (s.domainIndex, core)

/-- An agent at (device, core) b lies in the S-instance of an agent at a (R358): every device of the domain from scope 4 on. -/
def inInstance (a : Nat × Nat) (scope : BitVec 3) (b : Nat × Nat) : Bool :=
  match scope.toNat with
  | 0 => a == b
  | 1 => a == b
  | 2 => a.1 == b.1 && dieOf a.2 == dieOf b.2
  | 3 => a.1 == b.1
  | _ => true

/-- The recorded access and the new one lie in each other's instances. The agent is identified by its device and core (R383), so
cluster scope is told apart by core as well (log 24). -/
def scopeMeets (r : ScopeRecord) (scope : BitVec 3) (agent : Nat × Nat) : Bool :=
  inInstance (r.device, r.core) r.scope agent && inInstance agent scope (r.device, r.core)

/-- A synchronising access of an agent to a line mismatches (R383). -/
def State.mismatches (s : State) (agent : Nat × Nat) (scope : BitVec 3) (pa : Nat) : Bool :=
  !s.privateLine (pa / 128) && (match s.scopeAt (pa / 128) with
    | some r => !scopeMeets r scope agent
    | none => false)

/-- A partition's mismatch is counted, but in mode 0 (R384, R385). -/
def State.countMismatch (s : State) (mode : BitVec 2) (p : Nat) : State :=
  if mode != 0 then s.setPart p { s.part p with scopeCount := satInc (s.part p).scopeCount } else s

/-- A synchronising access to a line by a core, issued under a scope mode, is judged: a mismatch is counted, and the mode may not let it pass
(R383-R385). -/
def State.judgeSync (s : State) (mode : BitVec 2) (p : Nat) (core : Nat) (scope : BitVec 3) (pa : Nat) : State × Bool :=
  if s.mismatches (s.domainIndex, core) scope pa then (s.countMismatch mode p, mode != 2) else (s, true)

/-- A synchronising access is judged and, where it passes, leaves its record (R383). -/
def State.syncAs (s : State) (mode : BitVec 2) (p : Nat) (core : Nat) (scope : BitVec 3) (pa : Nat) : State × Bool :=
  match s.judgeSync mode p core scope pa with
  | (s, true) => (s.agentSync pa scope core, true)
  | (s, false) => (s, false)

/-- A synchronising access that is performed as it issues. -/
def State.syncAccess (s : State) (p : Nat) (core : Nat) (scope : BitVec 3) (pa : Nat) : State × Bool :=
  s.syncAs (s.part p).scopeMode p core scope pa

/-- The release of a retirement's update at package scope (R418). One by a core may mismatch, which is counted; it is performed in every mode,
since where an instruction retires its unit the mode has been asked before (log 24). A device agent's never mismatches (R383). -/
def State.retireSync (s : State) (p core pa : Nat) : State :=
  if core = agentCore then s.agentSync pa 3 core
  else (s.syncAs (if (s.part p).scopeMode = 2 then 1 else (s.part p).scopeMode) p core 3 pa).1

/-! ## Stores that have not reached the L1 (R428) -/

/-- A late store is performed: its bytes, then its tag and its record of scope (R35, R383). One whose line has become poisoned or uncorrectable
since it issued is lost (log 26). -/
def State.performLate (s : State) (b : Nat) (x : LateStore) : State :=
  match s.storeByLine x.pa x.bytes with
  | (s, some _) => s
  | (s, none) =>
    let s := if x.tag then s.setTag x.pa true else s
    match x.scope with
    | some c => s.agentSync x.pa c (b / 8)
    | none => s

/-- A late store goes to one of some lines. -/
def LateStore.meets (x : LateStore) (lines : List (Nat × Nat)) : Bool :=
  lines.any (fun l => decide (l.1 ≤ x.pa / 128) && decide (x.pa / 128 < l.1 + l.2))

/-- The late stores of a bank to some lines are performed, oldest first. -/
def State.flushBank (s : State) (lines : List (Nat × Nat)) (b : Nat) : State :=
  let l := (s.bank b).late
  (l.filter (·.meets lines)).foldl (fun (s : State) x => s.performLate b x)
    (s.setBank b { (s.bank b) with late := l.filter (fun x => !x.meets lines) })

/-- Every store issued to some lines is performed: before an object's lines become private or sealed, or are taken into use anew (R360, R361,
R363). -/
def State.flushLate (s : State) (lines : List (Nat × Nat)) : State :=
  ((s.banks.filter (fun x => x.2.late.any (·.meets lines))).map (·.1)).foldl (fun (s : State) b => s.flushBank lines b) s

/-! ## Token buckets (R65) -/

/-- The bucket a request to an address is charged to. -/
def bucketNo (pa : Nat) : Nat := match memKind pa with | .hbm => 0 | .tier => 1 | .peer => 2 | _ => 3

/-- Bytes per nanosecond, and the most a bucket holds. -/
def Partition.rate (x : Partition) (k : Nat) : Nat :=
  match k with | 0 => x.bwHbm.toNat | 1 => x.bwCxl.toNat | 2 => x.bwYareno.toNat | _ => x.bwHost.toNat
def Partition.bucketMax (x : Partition) : Int := 4096 * (if x.bwDepth = 0 then 1 else x.bwDepth.toNat)

/-- The bucket brought up to the present time. -/
def Partition.bucket (x : Partition) (k : Nat) (now : BitVec 64) : Bucket :=
  let b := SMap.get {} x.buckets k
  let c := b.count + x.rate k * (now - b.since).toNat
  { count := if x.bucketMax < c then x.bucketMax else c, since := now }

/-- A request of a partition to an address passes fabric ingress now. -/
def State.ingressOpen (s : State) (p pa : Nat) : Bool :=
  let x := s.part p
  let k := bucketNo pa
  x.rate k == 0 || decide (0 < (x.bucket k s.now).count)

/-- Nanoseconds until a bucket's count is above 0. -/
def Bucket.opensIn (b : Bucket) (rate : Nat) : Nat := if 0 < b.count then 0 else (-b.count).toNat / rate + 1

/-- A request of n bytes passes ingress, as soon as c > 0, and is charged. What a step's later requests wait at a bucket passes within that
step (log 40). -/
def State.charge (s : State) (p pa n : Nat) : State :=
  let x := s.part p
  let k := bucketNo pa
  if x.rate k = 0 then s
  else
    let s := { s with now := s.now + BitVec.ofNat 64 ((x.bucket k s.now).opensIn (x.rate k)) }
    let b := x.bucket k s.now
    s.setPart p { x with buckets := SMap.set {} x.buckets k { b with count := b.count - n } }

/-- A request to an address crosses fabric ingress: one that is not cached always, a cached one when it misses in L2 (R65, R228). -/
def State.crosses (s : State) (pa : Nat) : Bool :=
  match memKind pa with
  | .hbm => Config.missesL2 s.stepNo (pa / 128)
  | .tier => Config.missesL2 s.stepNo (pa / 128)
  | _ => true

/-- A cached request has to wait at ingress. -/
def State.ingressWaits (s : State) (p pa : Nat) : Bool := !s.ingressOpen p pa && s.crosses pa

/-- Requests for lines: each that misses in L2 is charged for itself. -/
def State.requestLines (s : State) (p : Nat) : List Nat → State
  | [] => s
  | l :: ls => (if s.crosses (128 * l) then s.charge p (128 * l) 128 else s).requestLines p ls

/-- A request for n bytes is made: a cached one asks for its lines, each of which is charged when it crosses (R65, log 40). -/
def State.request (s : State) (p pa n : Nat) : State :=
  if (s.part p).rate (bucketNo pa) = 0 then s
  else match memKind pa with
    | .hbm => s.requestLines p (linesOf pa n)
    | .tier => s.requestLines p (linesOf pa n)
    | _ => s.charge p pa n

/-! ## Room in the Crocks (R17, R387) -/

/-- The die whose Crock serves an address: the one that holds its home agent (R13, R17, R262). -/
def crockDie (pa : Nat) (port : Nat := 0) : Nat :=
  if isHbm pa then stackOf pa / 2 else if port < 5 then 0 else 2

/-- The CXL port that holds a tier offset (R264). -/
def State.portOf (s : State) (x : Nat) : Nat :=
  ((List.range 10).find? (fun i =>
    let r := s.cxlRangeOf i
    bit r 0 && decide (bits r 32 16 * 2 ^ 30 ≤ x) && decide (x < (bits r 32 16 + bits r 16 16) * 2 ^ 30))).getD 0

/-- The SRAM of a die's Crock and a partition's overflow area there are both full. -/
def State.crockFullAt (s : State) (die p : Nat) : Bool := SMap.get false s.crockFull (die * 16 + p)

/-- The die whose Crock homes an address. -/
def State.crockOf (s : State) (pa : Nat) : Nat := crockDie pa (s.portOf (pa - tierBase))

/-- An operation of a partition on an address of this device finds no room for a new entry in the Crock of the address. -/
def State.noRoom (s : State) (p pa : Nat) : Bool :=
  match memKind pa with
  | .hbm => s.crockFullAt (s.crockOf pa) p
  | .tier => s.crockFullAt (s.crockOf pa) p
  | _ => false

/-! ## Mailbox registers and fault records (R67, R69) -/

/-- A field of a function slot's region as the device reads it, and the state after that read. -/
def State.mbox32 (s : State) (slot off : Nat) : BitVec 32 := BitVec.ofNat 32 (s.agentRead (s.regionBase slot + off) 4).2
def State.touchMbox (s : State) (slot off : Nat) : State := (s.agentRead (s.regionBase slot + off) 4).1
def State.setMbox32 (s : State) (slot off : Nat) (v : BitVec 32) : State := s.agentStore (s.regionBase slot + off) (toBytes 4 v.toNat)

/-- The device writes a fault record of 64 bytes to a partition's ring, or drops it (R69). -/
def State.faultRecord (s : State) (part : Nat) (bytes : List Byte) : State :=
  let sl := (s.part part).functionSlot
  let tail := s.mbox32 sl 0x104
  let s := s.touchMbox sl 0x104
  let head := s.mbox32 sl 0x80
  let s := s.touchMbox sl 0x80
  let s := if 1024 ≤ (tail - head).toNat then
      (s.touchMbox sl 0x108).setMbox32 sl 0x108 (satInc (s.mbox32 sl 0x108))
    else ((s.agentStore (s.regionBase sl + 0x20000 + 64 * (tail.toNat % 1024)) bytes).setMbox32 sl 0x104 (tail + 1)).agentSync
      (s.regionBase sl + 0x104) 5 agentCore
  s.signal (.vfVector sl 1)

/-- The bytes of a fault record (R409). -/
def recordBytes (code : Code) (flags : Nat) (job wher : Nat) (seq : BitVec 32) (core : Nat) (wseq : BitVec 32)
    (pc addr info : BitVec 64) (launch graph phase : Nat) (time : BitVec 64) (req : Nat) : List Byte :=
  toBytes 1 code.toNat ++ toBytes 1 flags ++ toBytes 1 job ++ toBytes 1 wher ++ toBytes 4 seq.toNat ++ toBytes 2 core
    ++ toBytes 2 0 ++ toBytes 4 wseq.toNat ++ toBytes 8 pc.toNat ++ toBytes 8 addr.toNat ++ toBytes 8 info.toNat
    ++ toBytes 4 launch ++ toBytes 2 graph ++ toBytes 1 phase ++ toBytes 1 0 ++ toBytes 8 time.toNat ++ toBytes 4 req ++ toBytes 4 0

/-- An uncorrectable error in a dirty line of an island's L1 or L2, found on its eviction (R414): the line is written back poisoned, unless
its metadata block is uncorrectable, which poisons it as well (R270); its scrub version counts the write (R275), and the written record of its
frame is set, as by every write-back (R238). -/
def State.dirtyLineError (s : State) (line : Nat) (l2 : Bool) (island : Nat) : State :=
  let pa := 128 * line
  let s := if isHbm pa then s.wakeRegions [pa / 2 ^ 20] else s
  let s := match s.lineFault line [] true with
    | (s, some _) => s
    | (s, none) =>
      { (s.setLine line { (s.lineInfo line) with poison := true, live := true }) with scrubs := changeScrubs [line] s.scrubs }
  let s := { s with written := setTags s.written true [pa / 65536] }
  let owner := s.partOfPa pa
  let s := s.ras pa (if l2 then 3 else 2) 1 owner (some island)
  match owner with
  | some p => s.faultRecord p (recordBytes cUE_DEFERRED 0x20 0xFF 0 0 0xFFFF 0 0 (BitVec.ofNat 64 pa) 0 0 0 0 s.now 0)
  | none => s

end Sys2Proof.Machine
end

