-- ==== Sys2Proof/Machine/Walk.lean ====
section
/-! DEFINITION. Address translation (R227-R231): the walk of a partition's page tables, and the Creamery window (R291). -/

namespace Sys2Proof.Machine

/-- What a walk is made for: write intent, a bank at level 0, an instruction fetch. -/
structure Intent where
  write : Bool := false
  user  : Bool := false
  exec  : Bool := false
  /-- only whether a leaf of proper form stands there (R238) -/
  probe : Bool := false
  deriving DecidableEq, Repr

/-- A successful translation: the leaf's address (none in the Creamery window), the page and what the leaf says of it. -/
structure Page where
  leaf  : Option Nat
  frame : Nat
  size  : Nat
  perm  : BitVec 4
  gen   : BitVec 12
  deriving DecidableEq, Repr

/-- The base of the Creamery window (R291). -/
def windowBase : Nat := 0x00FF000000000000

/-- R227: bits [63:57] all equal bit 56. -/
def canonical (va : BitVec 64) : Bool := bits va 56 8 == 0 || bits va 56 8 == 255

/-- The effective naming key of a partition (R71). -/
def State.nameKey (s : State) (p : Nat) : BitVec 64 :=
  let x := s.part p
  if x.shareEnable && x.shareId != 0 then SMap.get 0 s.shareKeys x.shareId.toNat else x.key

/-- The frame of a node's map: a REMOTE stub has none (R292). -/
def Node.mapFrame (n : Node) : Option Nat := if n.state = .remote then none else some n.map

/-- The frames of a node's map and pages. -/
def Node.frames (n : Node) : List Nat := n.mapFrame.toList ++ n.pages

/-- A node's Creamery objects lie in this 64 KiB frame: its record, its map or a page. -/
def Node.usesFrame (n : Node) (rec frame : Nat) : Bool := rec / 65536 * 65536 == frame || n.frames.contains frame

/-- The frame holds a Creamery object of a partition with the same effective naming key (R291). -/
def State.windowHolds (s : State) (p : Nat) (frame : Nat) : Bool :=
  s.nodes.any (fun (x : Nat × Option Node) => match x.2 with
    | some n => n.usesFrame x.1 frame && s.nameKey n.part == s.nameKey p
    | none => false)

/-- A table or leaf frame in the partition's memory: its channel groups and granted ranges; no table lies in the mailbox, which
belongs to no partition's capacity (R58, R67). -/
def State.tableHeld (s : State) (p : Nat) (pa : Nat) : Bool :=
  (s.mailboxSlot pa).isNone && s.partHolds (s.part p) pa

/-- The leaf may name the frame: host and peer frames are not checked (R58, R263). -/
def State.frameHeld (s : State) (p : Nat) (pa : Nat) : Bool :=
  match memKind pa with
  | .host => true
  | .peer => true
  | _ => s.partHolds (s.part p) pa

/-- Read an aligned table word for a partition: MDUE or POISON as the line gives (R231). -/
def State.tableWord (s : State) (p pa : Nat) : State × Except Code (BitVec 64) :=
  match (s.request p pa 8).fillFault pa 8 with
  | (s, some c) => (s, .error c)
  | (s, none) => (s, .ok (s.peek64 pa))

/-- The whole page has memory behind it (R231): what has ends on whole GiB of a group or a tier range, so both ends tell (log 14). -/
def State.pageBehind (s : State) (frame size : Nat) : Bool := s.behind frame && s.behind (frame + size - 1)

/-- The page overlaps the partition's Crock overflow area, which no address space maps (R387). -/
def Partition.crockArea (x : Partition) (frame size : Nat) : Bool :=
  let base := bits x.crockBase 21 31 * 2 ^ 21
  x.crockSize != 0 && decide (base < frame + size) && decide (frame < base + x.crockSize.toNat * 2 ^ 21)

/-- The whole page may be named (R58, R263): its ends lie in frames the partition holds, and a page that touches the mailbox lies in one
region of it (log 14). -/
def State.pageHeld (s : State) (p frame size : Nat) : Bool :=
  let last := frame + size - 1
  s.frameHeld p frame && s.frameHeld p last && s.mailboxSlot frame == s.mailboxSlot last
    && !(isHbm frame && (s.part p).crockArea frame size)

/-- Bytes a size code names, with the level at which it may stand (R230, R231). -/
def pageSize (code : Nat) : Nat := match code with | 0 => 2 ^ 16 | 1 => 2 ^ 21 | 2 => 2 ^ 26 | _ => 2 ^ 31
def pageLevel (code : Nat) : Nat := match code with | 0 => 3 | 1 => 2 | 2 => 2 | _ => 1

/-- Index of a virtual address at a level (R230). -/
def levelIndex (level : Nat) (va : BitVec 64) : Nat :=
  match level with | 0 => bits va 44 13 | 1 => bits va 31 13 | 2 => bits va 21 10 | _ => bits va 16 5

/-- Alignment of a table at a level (R230). -/
def tableAlign (level : Nat) : Nat := match level with | 0 => 65536 | 1 => 65536 | 2 => 8192 | _ => 256

/-- The checks on a leaf (R231), with the faults of an entry's form before those of its permissions. -/
def State.checkLeaf (s : State) (p : Nat) (level : Nat) (at' : Nat) (e : BitVec 64) (i : Intent) : Except Code Page :=
  let code := bits e 2 2
  let frame := bits e 16 36 * 65536
  let size := pageSize code
  if pageLevel code ≠ level ∨ bits e 11 5 ≠ 0 ∨ bit e 8 ∨ frame % size ≠ 0 then .error cPAGE
  else if i.probe then .ok { leaf := some at', frame := frame, size := size, perm := e.extractLsb' 4 4, gen := e.extractLsb' 52 12 }
  else if !s.pageBehind frame size then .error cPAGE
  else if !bit e 4 || (i.write && !bit e 5) || (i.user && !bit e 7) then .error cPERM
  else if i.exec && (!bit e 6 || !(memKind frame = MemKind.hbm ∨ memKind frame = MemKind.tier)) then .error cPERM
  else if !s.pageHeld p frame size then .error cPERM
  else .ok { leaf := some at', frame := frame, size := size, perm := e.extractLsb' 4 4, gen := e.extractLsb' 52 12 }

/-- Walk from a table at a level, with `fuel` levels left (R230, R231). -/
def State.walkFrom (s : State) (p : Nat) (va : BitVec 64) (i : Intent) : Nat → Nat → Nat → State × Except Code Page
  | 0, _, _ => (s, .error cPAGE)
  | fuel + 1, level, table =>
    let a := table + 8 * levelIndex level va
    if !s.tableHeld p a then (s, .error cPERM)
    else if !s.behind a then (s, .error cPAGE)
    else match s.tableWord p a with
      | (s, .error c) => (s, .error c)
      | (s, .ok e) =>
        if !bit e 0 then (s, .error cPAGE)
        else if bit e 1 then (s, s.checkLeaf p level a e i)
        else
          let next := bits e 8 44 * 256
          if level = 3 ∨ bits e 52 12 ≠ 0 ∨ bits e 2 6 ≠ 0 ∨ next % tableAlign (level + 1) ≠ 0 then (s, .error cPAGE)
          else s.walkFrom p va i fuel (level + 1) next

/-- Translate a virtual address of an address space of a partition (R230, R231, R291). -/
def State.walk (s : State) (p : Nat) (asid : BitVec 16) (va : BitVec 64) (i : Intent) : State × Except Code Page :=
  if !canonical va || decide (va.toNat < 0x10000) then (s, .error cPAGE)
  else if windowBase ≤ va.toNat ∧ va.toNat < windowBase + 2 ^ 52 then
    let frame := (va.toNat - windowBase) / 65536 * 65536
    if i.write || i.exec || !s.windowHolds p frame then (s, .error cPERM)
    else (s, .ok { leaf := none, frame := frame, size := 65536, perm := 1, gen := 0 })
  else
    let base := bits (s.part p).asidTable 19 33 * 2 ^ 19
    let a := base + 8 * asid.toNat
    if base = 0 ∨ !s.behind a then (s, .error cPAGE)
    else match s.tableWord p a with
      | (s, .error c) => (s, .error c)
      | (s, .ok e) =>
        if !bit e 0 || bits e 1 15 != 0 || bits e 52 12 != 0 then (s, .error cPAGE)
        else s.walkFrom p va i 4 0 (bits e 16 36 * 65536)

/-- The physical address of va within its page. -/
def Page.at (g : Page) (va : BitVec 64) : Nat := g.frame + va.toNat % g.size

/-- The address a device agent reaches, when the translation succeeds (R359, R435), and the state after its walk. -/
def State.agentPa (s : State) (p : Nat) (asid : BitVec 16) (va : BitVec 64) : State × Option Nat :=
  match s.walk p asid va { write := true } with
  | (s, .ok g) => (s, some (g.at va))
  | (s, .error _) => (s, none)

/-- Set bits of a leaf (R234, R238): a write of its word, lost where its line refuses it. -/
def State.markLeaf (s : State) (leaf : Nat) (e : BitVec 64) : State := s.agentStore leaf (toBytes 8 e.toNat)

/-- Set the accessed bit of a leaf (R234). -/
def State.setAccessed (s : State) (g : Page) : State :=
  match g.leaf with
  | none => s
  | some l => if bit (s.peek64 l) 9 then s else s.markLeaf l (s.peek64 l ||| 0x200#64)

/-- The asid has a valid entry in the partition's table (R229), as a device agent reads it. -/
def State.asidValid (s : State) (p : Nat) (asid : BitVec 16) : State × Bool :=
  let base := bits (s.part p).asidTable 19 33 * 2 ^ 19
  if base = 0 ∨ !s.behind (base + 8 * asid.toNat) then (s, false)
  else ((s.agentRead (base + 8 * asid.toNat) 8).1, bit (BitVec.ofNat 64 (s.agentRead (base + 8 * asid.toNat) 8).2) 0)

end Sys2Proof.Machine
end

