-- ==== Sys2Proof/Machine/Nodes.lean ====
section
/-! DEFINITION. Creamery nodes at rest (R292, R300, R314): their records in memory, the handles onto their pages, freeing. -/

namespace Sys2Proof.Machine

/-- Word 0 of an object header (R32). -/
def headerWord (part owner size16 scope state : Nat) : Nat :=
  part * 2 ^ 56 + owner * 2 ^ 48 + size16 * 2 ^ 16 + scope * 2 ^ 6 + state * 2 ^ 4 + 15

def NodeState.code (x : NodeState) : Nat :=
  match x with | .opened => 0 | .sealed => 1 | .evicting => 2 | .remote => 3

/-- Bytes 16 to 127 of a node's record (R292). -/
def Node.recordBytes (n : Node) : List Byte :=
  toBytes 16 n.name.toNat
    ++ toBytes 8 (match n.parent with | some r => windowBase + r | none => 0)
    ++ toBytes 8 (match n.mapFrame with | some m => windowBase + m | none => 0)
    ++ toBytes 8 n.sigma.toNat ++ toBytes 4 n.depth.toNat ++ toBytes 1 n.state.code ++ toBytes 1 n.cls.toNat
    ++ toBytes 1 n.tier.toNat
    ++ toBytes 1 ((if n.test then 1 else 0) + (if n.collided then 2 else 0) + 4 * n.bcode.toNat)
    ++ toBytes 4 n.refs.toNat ++ toBytes 4 n.gen.toNat ++ toBytes 8 n.leaseExpiry.toNat ++ toBytes 8 n.lastRelease.toNat
    ++ toBytes 40 0

/-- Write a node and its record after the header, with the tags of the parent and map words (R35, R292); a write that the record's line
answers POISON or MDUE is lost (log 52). -/
def State.writeNode (s : State) (r : Nat) (n : Node) : State :=
  let s := { s with nodes := SMap.set none s.nodes r (some n) }
  match s.storeByLine (r + 16) n.recordBytes with
  | (s, none) => (s.setTag (r + 32) n.parent.isSome).setTag (r + 40) n.mapFrame.isSome
  | (s, some _) => s

/-- A Creamery agent updates a node: a request of the node's partition for the record (R65). -/
def State.setNode (s : State) (r : Nat) (n : Node) : State := (s.request n.part r 128).writeNode r n

/-- Write an object header of a kind, word 0 tagged (R32, R35), after what has been stored to its line (R361, R363). -/
def State.putHeader (s : State) (pa part owner size16 scope state kind : Nat) : State :=
  match (s.flushLate [(pa / 128, 1)]).storeByLine pa (toBytes 8 (headerWord part owner size16 scope state) ++ toBytes 8 kind) with
  | (s, none) => s.setTag pa true
  | (s, some _) => s

/-- Generation of a record address. -/
def State.gen (s : State) (r : Nat) : BitVec 32 := SMap.get 0 s.gens r

/-- The node a node register names, when it names a record that has not been freed (R299). -/
def State.liveNode (s : State) (x : NodeReg) : Option (Nat × Node) :=
  match x with
  | .node r g =>
    if s.gen r = g then
      match s.node r with
      | some n => some (r, n)
      | none => none
    else none
  | _ => none

/-! ## Invalidating handles (R233, R300) -/

/-- A handle that a revocation reaches: VALID and FAULT become INVALID, a walk that is running ends INVALID (R233). -/
def Handle.revoke (h : Handle) : Handle :=
  match h.state with
  | .translating => { h with revoked := true }
  | .pending => { h with revoked := true }
  | _ => { va := h.va }

def revokeIn (pred : Handle → Bool) : SMap Handle → SMap Handle
  | [] => []
  | (k, h) :: m =>
    if pred h then (if h.revoke = {} then revokeIn pred m else (k, h.revoke) :: revokeIn pred m)
    else (k, h) :: revokeIn pred m

/-- Revoke the handles for which `pred` holds, in the banks whose unit `sel` picks. -/
def revokeBanks (sel : Option WorkUnit → Bool) (pred : Handle → Bool) : SMap Bank → SMap Bank
  | [] => []
  | (k, b) :: m => (k, if sel b.unit then { b with h := revokeIn pred b.h } else b) :: revokeBanks sel pred m

/-- A copy that has not moved all its windows. -/
def QEntry.unmoved (e : QEntry) : Bool := match e.phase with | .queued => true | .copying _ _ => true | _ => false

/-- Revoke the handle that a copy took at its issue; a copy that runs then stops at its window boundary (R282, R286). -/
def QEntry.revoke (pred : Handle → Bool) (e : QEntry) : QEntry :=
  if e.unmoved && pred e.handle then { e with handle := e.handle.revoke } else e

def revokeAside (sel : Option WorkUnit → Bool) (pred : Handle → Bool) : SMap Bank → SMap Bank
  | [] => []
  | (k, b) :: m =>
    (k, if sel b.unit then { b with aside := b.aside.map (fun x => (x.1, x.2.revoke pred)) } else b) :: revokeAside sel pred m

def State.revokeQueued (s : State) (sel : Option WorkUnit → Bool) (pred : Handle → Bool) : SMap Cluster → SMap Cluster
  | [] => []
  | (k, c) :: m =>
    (k, if sel (s.bank (s.activeBank k)).unit then
        { c with qL := c.qL.map (·.revoke pred), qC := c.qC.map (·.revoke pred), qS := c.qS.map (·.revoke pred) }
      else c) :: s.revokeQueued sel pred m

def State.revokeHandles (s : State) (sel : Option WorkUnit → Bool) (pred : Handle → Bool) : State :=
  { s with banks := revokeAside sel pred (revokeBanks sel pred s.banks), clusters := s.revokeQueued sel pred s.clusters }

/-! ## Freeing (R300) -/

/-- The name of a node's parent or root (R297). -/
def State.parentName (s : State) (n : Node) : BitVec 128 :=
  match n.parent with
  | some r => (match s.node r with | some p => p.name | none => rootName n.test n.sigma)
  | none => rootName n.test n.sigma

/-- What a directory entry holds for a node (R314). -/
def State.nodeKey (s : State) (n : Node) : NameKey :=
  { name := n.name, sigma := n.sigma, bcode := n.bcode, test := n.test,
    parent := s.parentName n,
    shape := n.shape, tokens := n.tokens }

/-- Add or remove a holder in this device's own directory, which keeps an entry for each name with its fields; a 17th holder is refused
(R314). -/
def addHolder (dev : Nat) (k : NameKey) : List DirEntry → List DirEntry
  | [] => [{ key := k, holders := [dev] }]
  | e :: es =>
    if e.key = k then
      (if e.holders.contains dev || decide (16 ≤ e.holders.length) then e else { e with holders := e.holders ++ [dev] }) :: es
    else e :: addHolder dev k es

def dropHolder (dev : Nat) (k : NameKey) : List DirEntry → List DirEntry
  | [] => []
  | e :: es =>
    if e.key = k then
      let h := e.holders.filter (· ≠ dev)
      if h.isEmpty then es else { e with holders := h } :: es
    else e :: dropHolder dev k es

/-- Register or unregister this device as a holder at the name's home device, when a link leads there (R30, R314). -/
def State.registerHolder (s : State) (add : Bool) (n : Node) : State :=
  let k := s.nodeKey n
  let home := n.name.toNat % s.domainSize
  if home = s.domainIndex then
    { s with directory := if add then addHolder s.domainIndex k s.directory else dropHolder s.domainIndex k s.directory }
  else if s.linked then s.signal (.register add home k)
  else s

/-- Another node's record lies in the frame. -/
def State.frameShared (s : State) (r : Nat) : Bool :=
  s.nodes.any (fun (x : Nat × Option Node) => x.1 != r && x.1 / 65536 == r / 65536 && x.2.isSome)

/-- Lower a node's refs by one; at 0 its last release is now (R308). -/
def State.decRefs (s : State) (r : Nat) : State :=
  match s.node r with
  | some n =>
    let refs := n.refs - 1
    s.setNode r { n with refs := refs, lastRelease := if refs = 0 then s.now else n.lastRelease }
  | none => s

/-- A record ends: its generation rises, handles onto its pages become INVALID, the records of its lines are dropped, and its frames
return to the pool. -/
def State.releaseNode (s : State) (r : Nat) (n : Node) : State :=
  let frames := (if s.frameShared r then [] else [r / 65536 * 65536]) ++ n.frames
  let s := s.setNode r { n with gen := n.gen + 1 }
  let s := s.revokeHandles (fun _ => true) (fun h => frames.any (fun f => decide (h.frame ≤ f) && decide (f < h.frame + h.size))
    && (h.state == HandleState.valid || h.result == some HandleState.valid))
  { s with
    nodes := SMap.set none s.nodes r none
    gens := SMap.set 0 s.gens r (n.gen + 1)
    records := s.records.filter (fun x => !(x.header = r || n.frames.contains x.header)) }

/-- This device holds the node under its name (R314): a sealed one that collided with none, whether it is being evicted or not. -/
def Node.held (n : Node) : Bool := !n.collided && (n.state == NodeState.sealed || n.state == NodeState.evicting)

/-- Another indexed node of the device is held under the same entry. -/
def State.heldElsewhere (s : State) (r : Nat) (n : Node) : Bool :=
  s.index.any (fun x => x.2 != r && x.1 == n.name && (match s.node x.2 with
    | some m => m.held && decide (s.nodeKey m = s.nodeKey n)
    | none => false))

/-- Free a node: it also leaves the index and unregisters as a holder (R300). -/
def State.freeNode (s : State) (r : Nat) : State :=
  match s.node r with
  | none => s
  | some n =>
    let s := if n.held && !s.heldElsewhere r n then s.registerHolder false n else s
    let s := s.releaseNode r n
    { s with index := s.index.filter (fun x => x.2 ≠ r) }

/-- Free a node and let its parent go (R305, R307, R311). -/
def State.dropNode (s : State) (r : Nat) : State :=
  match s.node r with
  | none => s
  | some n =>
    let s := s.freeNode r
    match n.parent with
    | some p => s.decRefs p
    | none => s

/-- A NOPEN that waited goes no further: its refs step is undone (R302). Where that brings refs back to 0, last_release stays as it was before the
step (R308 does not say; log 38). -/
def State.undoOpen (s : State) (b : Nat) : State :=
  match (s.bank b).opening with
  | none => s
  | some x =>
    let s := match s.liveNode x with
      | some (r, n) => s.setNode r { n with refs := n.refs - 1 }
      | none => s
    s.setBank b { (s.bank b) with opening := none }

/-- Free every node a unit has opened and not sealed (R300, R307). -/
def State.dropOpened (s : State) (unit : Nat) : State :=
  let rs := (s.nodes.filter (fun (x : Nat × Option Node) => match x.2 with
    | some n => n.state == NodeState.opened && n.opener == unit
    | none => false)).map (·.1)
  rs.foldl (fun (s : State) r => s.dropNode r) s

end Sys2Proof.Machine
end

