-- ==== Sys2Proof/Machine/Jobs.lean ====
section
/-! DEFINITION. Continuation records, job contexts and their counters, and completion (R40-R44, R84, R417, R418, R421). -/

namespace Sys2Proof.Machine

/-! ## Fields of a continuation record (R40) -/

def Record.width (r : Record) : Nat := 2 ^ bits r.w0 0 2
def Record.code (r : Record) : BitVec 64 := r.w0 &&& ~~~(3#64)
def Record.level (r : Record) : Nat := bits r.w2 32 5
def Record.commitAtStart (r : Record) : Bool := bit r.w2 37
def Record.bankBOk (r : Record) : Bool := bit r.w2 38
def Record.affinity (r : Record) : Nat := bits r.w2 48 16
def Record.launch (r : Record) : Nat := bits r.w3 0 32
def Record.graph (r : Record) : Nat := bits r.w3 32 16
def Record.phase (r : Record) : Nat := bits r.w3 48 8
def Record.job (r : Record) : Nat := bits r.w3 56 8

/-- Little-endian words of 32 bytes. -/
def Record.ofBytes (b : List Byte) (tag : Bool) : Record :=
  let w := fun i => BitVec.ofNat 64 (Machine.ofBytes ((b.drop (8 * i)).take 8))
  { w0 := w 0, w1 := w 1, w2 := w 2, w3 := w 3, tag := tag }

/-- The record passes the check of R41 for a partition. -/
def State.recordOk (s : State) (p : Nat) (r : Record) : Bool :=
  bits r.w0 0 2 != 3
    && (r.w1 == 0 || (r.tag && bits r.w1 0 4 == 0))
    && decide (r.job < 64)
    && (match s.job p r.job with
        | some j => decide (r.graph < 2 ^ j.graphLog2) && decide (r.launch < 2 ^ j.launchLog2)
        | none => false)

/-! ## Counter entries (R42, R43) -/

/-- Levels of work (R84). -/
inductive WorkLevel where
  | launch | graph | phase | job
  deriving DecidableEq, Repr

/-- Virtual address of an entry in a job's context (R42). -/
def Job.entryVa (j : Job) (l : WorkLevel) (id : Nat) : BitVec 64 :=
  j.ctx + BitVec.ofNat 64 (match l with
    | .job => 16
    | .phase => 32 + 16 * id
    | .graph => 4128 + 16 * id
    | .launch => 4128 + 16 * 2 ^ j.graphLog2 + 16 * id)

/-- Physical address of an entry, and the state after the walk. -/
def State.entryPa (s : State) (p : Nat) (j : Job) (l : WorkLevel) (id : Nat) : State × Option Nat :=
  s.agentPa p j.asid (j.entryVa l id)

/-- A counter entry as it stands in memory (R43). -/
structure Counter where
  outstanding : BitVec 32
  retired : BitVec 32
  parent : BitVec 16
  state : BitVec 8
  deriving DecidableEq, Repr

/-- Read an entry; one whose page is no longer mapped reads as zero (log 23). -/
def State.seeCounter (s : State) (p : Nat) (j : Job) (l : WorkLevel) (id : Nat) : State × Counter :=
  match s.entryPa p j l id with
  | (s, some a) =>
    let v := (s.agentRead a 11).2
    ((s.agentRead a 11).1, { outstanding := BitVec.ofNat 32 v, retired := BitVec.ofNat 32 (v / 2 ^ 32),
                             parent := BitVec.ofNat 16 (v / 2 ^ 64), state := BitVec.ofNat 8 (v / 2 ^ 80) })
  | (s, none) => (s, { outstanding := 0, retired := 0, parent := 0, state := 0 })

/-- What an entry holds. -/
def State.counter (s : State) (p : Nat) (j : Job) (l : WorkLevel) (id : Nat) : Counter := (s.seeCounter p j l id).2

/-- Update an entry, an atomic of 8 bytes (R65); its reserved bytes stay. An update of a retirement is a release at package scope by the
core that retires (R383, R418). -/
def State.setCounter (s : State) (p : Nat) (j : Job) (l : WorkLevel) (id : Nat) (c : Counter) (core : Option Nat := none) : State :=
  match s.entryPa p j l id with
  | (s, some a) =>
    let s := (s.charge p a 8).agentStore a (toBytes 4 c.outstanding.toNat ++ toBytes 4 c.retired.toNat
      ++ toBytes 2 c.parent.toNat ++ toBytes 1 c.state.toNat)
    (match core with | some n => s.retireSync p n a | none => s)
  | (s, none) => s

def Counter.isOpen (c : Counter) : Bool := bit c.state 0
def Counter.cancelled (c : Counter) : Bool := bit c.state 1

/-- The entries of a record: its launch, graph, phase and job (R42). -/
def Record.entries (r : Record) : List (WorkLevel × Nat) := [(.launch, r.launch), (.graph, r.graph), (.phase, r.phase), (.job, 0)]

/-- Any of a record's four entries is cancelled (R85). -/
def State.recordCancelled (s : State) (p : Nat) (r : Record) : Bool :=
  match s.job p r.job with
  | none => false
  | some j => r.entries.any (fun e => (s.counter p j e.1 e.2).cancelled)

/-- What reading a record's four entries does to their lines (R270, R271). -/
def State.seeRecord (s : State) (p : Nat) (r : Record) : State :=
  match s.job p r.job with
  | none => s
  | some j => r.entries.foldl (fun (s : State) e => (s.seeCounter p j e.1 e.2).1) s

/-! ## Accounting and retirement (R417, R418) -/

/-- account(rec): none when a count would pass 2^32 - 1. `first`: the record is the job's first (R47). -/
def State.account (s : State) (p : Nat) (r : Record) (first : Bool) : Option State :=
  match s.job p r.job with
  | none => none
  | some j =>
    let (s, L) := s.seeCounter p j .launch r.launch
    let (s, G) := s.seeCounter p j .graph r.graph
    let (s, P) := s.seeCounter p j .phase r.phase
    let (s, J) := s.seeCounter p j .job 0
    let newL := !L.isOpen
    let newG := newL && !G.isOpen
    let newP := newG && !P.isOpen
    let full := fun (c : Counter) => c.outstanding == BitVec.allOnes 32
    if full L || (newL && full G) || (newG && full P) || (newP && !first && full J) then none
    else
      let s := if newP && !first then s.setCounter p j .job 0 { J with outstanding := J.outstanding + 1 } else s
      let s := if newG then s.setCounter p j .phase r.phase
          { P with outstanding := P.outstanding + 1, state := P.state ||| 1 } else s
      let s := if newL then s.setCounter p j .graph r.graph
          { G with outstanding := G.outstanding + 1, state := G.state ||| 1,
                   parent := if newG then BitVec.ofNat 16 r.phase else G.parent } else s
      some (s.setCounter p j .launch r.launch
          { L with outstanding := L.outstanding + 1, state := L.state ||| 1,
                   parent := if newL then BitVec.ofNat 16 r.graph else L.parent })

/-- The entries that accounting a record updates: each one up to the first that is open (R417). -/
def State.accounts (s : State) (p : Nat) (r : Record) (j : Job) : List (WorkLevel × Nat) → List (WorkLevel × Nat)
  | [] => []
  | e :: es => e :: (if (s.counter p j e.1 e.2).isOpen then [] else s.accounts p r j es)

/-- The physical and virtual addresses of those entries. -/
def State.accountsAt (s : State) (p : Nat) (r : Record) : List (Nat × BitVec 64) :=
  match s.job p r.job with
  | none => []
  | some j => (s.accounts p r j r.entries).filterMap (fun e => match (s.entryPa p j e.1 e.2).2 with
      | some a => some (a, j.entryVa e.1 e.2)
      | none => none)

/-- The job completes: completion word, jobs_done, vector 0, the slot is free, its requests are dropped (R70, R421). The word and the count are
released at system scope (R368). -/
def State.completeJob (s : State) (p jn : Nat) (j : Job) : State :=
  let x := s.part p
  let sl := x.functionSlot
  let s := (s.agentStore (s.regionBase sl + j.doneOff.toNat) (toBytes 8 j.doneVal.toNat)).agentSync
    (s.regionBase sl + j.doneOff.toNat) 5 agentCore
  let s := ((s.touchMbox sl 0x10C).setMbox32 sl 0x10C (s.mbox32 sl 0x10C + 1)).agentSync (s.regionBase sl + 0x10C) 5 agentCore
  let s := if j.raise then s.signal (.vfVector sl 0) else s
  let s := s.setJob p jn none
  let x := s.part p
  let mine := fun (i : Nat) => x.requests.any (fun q => q.id == i && q.job == jn)
  s.setPart p { x with requests := x.requests.filter (fun q => q.job != jn),
                       answers := x.answers.filter (fun a => !mine a.request) }

/-- retire(entry) by a core, with `fuel` levels above it. -/
def State.retireEntry (s : State) (p jn : Nat) (j : Job) (core : Nat) : Nat → WorkLevel → Nat → State
  | 0, _, _ => s
  | fuel + 1, l, id =>
    let (s, c) := s.seeCounter p j l id
    let out := c.outstanding - 1
    let s := s.setCounter p j l id
      { c with outstanding := out, retired := c.retired + 1, state := if out = 0 then c.state &&& ~~~(1#8) else c.state } (some core)
    if out ≠ 0 then s
    else match l with
      | .launch => s.retireEntry p jn j core fuel .graph c.parent.toNat
      | .graph => s.retireEntry p jn j core fuel .phase (c.parent.toNat % 256)
      | .phase => s.retireEntry p jn j core fuel .job 0
      | .job => s.completeJob p jn j

/-- A record's unit retires, or is counted as retired-cancelled, by a core (R418). -/
def State.retireRecord (s : State) (p : Nat) (r : Record) (core : Nat) : State :=
  match s.job p r.job with
  | some j => s.retireEntry p r.job j core 4 .launch r.launch
  | none => s

/-- The physical and virtual addresses of the entries that a retirement updates, from one level up. -/
def State.retireChain (s : State) (p : Nat) (j : Job) : Nat → WorkLevel → Nat → List (Nat × BitVec 64)
  | 0, _, _ => []
  | fuel + 1, l, id =>
    let c := s.counter p j l id
    (s.entryPa p j l id).2.toList.map (fun a => (a, j.entryVa l id)) ++ (if c.outstanding ≠ 1 then [] else match l with
      | .launch => s.retireChain p j fuel .graph c.parent.toNat
      | .graph => s.retireChain p j fuel .phase (c.parent.toNat % 256)
      | .phase => s.retireChain p j fuel .job 0
      | .job => [])

/-- A unit's retirement finds no room in a Crock for an entry it updates (R387). -/
def State.retireStalls (s : State) (p : Nat) (r : Record) : Bool :=
  match s.job p r.job with
  | some j => (s.retireChain p j 4 .launch r.launch).any (fun a => s.noRoom p a.1)
  | none => false

/-- The first entry of a unit's retirement whose update would mismatch, where the partition's mode traps it (R385). -/
def State.retireMismatch (s : State) (p : Nat) (r : Record) (core : Nat) : Option (BitVec 64) :=
  match s.job p r.job with
  | some j =>
    if (s.part p).scopeMode ≠ 2 then none
    else ((s.retireChain p j 4 .launch r.launch).find? (fun a => s.mismatches (s.domainIndex, core) 3 a.1)).map (·.2)
  | none => none

/-- Set a bit of an entry's state byte: cancelled 2, faulted 4 (R43). -/
def State.markEntry (s : State) (p : Nat) (j : Job) (l : WorkLevel) (id : Nat) (m : BitVec 8) : State :=
  let (s, c) := s.seeCounter p j l id
  s.setCounter p j l id { c with state := c.state ||| m }

/-- A job-level CANCEL (R45, R66, R420). -/
def State.cancelJob (s : State) (p jn : Nat) : State :=
  match s.job p jn with
  | some j => s.markEntry p j .job 0 2
  | none => s

end Sys2Proof.Machine
end

