-- ==== Sys2Proof/Machine/Sched.lean ====
section
/-! DEFINITION. The hardware scheduler (R72-R87): queues, the order of waiting records, placing, reservations, pre-emption choice. -/

namespace Sys2Proof.Machine

/-- An island that a MOVE_ISLAND under way holds: no record is placed on it (R63). -/
def State.islandMoving (s : State) (i : Nat) : Bool :=
  match s.mgmt.running with
  | some c => c.island == some i
  | none => false

/-- The core is one of the partition's, present, and its island is not moving (R30, R57, R63). -/
def State.coreIn (s : State) (p core : Nat) : Bool :=
  s.corePresent core && bit (s.part p).islands (islandOf core) && !s.islandMoving (islandOf core)

/-- The partition whose placer works for a core. -/
def State.partOfCore (s : State) (core : Nat) : Option Nat :=
  (List.range 16).find? (fun p => (s.part p).live && bit (s.part p).islands (islandOf core))

def State.coresOf (s : State) (p : Nat) : List Nat := (List.range 192).filter (s.coreIn p)

/-- Effective level of a waiting record (R75). -/
def State.eff (s : State) (p : Nat) (w : Waiting) : Nat :=
  let x := s.part p
  let level := w.crec.level
  if x.agePeriod = 0 then level
  else level - Nat.min x.ageLimit.toNat ((s.now - w.enqTime).toNat / (x.agePeriod.toNat * 1000))

/-- The order of R75. -/
def State.before (s : State) (p : Nat) (a b : Waiting) : Bool :=
  let ea := s.eff p a
  let eb := s.eff p b
  if ea ≠ eb then decide (ea < eb)
  else if a.headmark ≠ b.headmark then a.headmark
  else if a.enqTime ≠ b.enqTime then decide (a.enqTime < b.enqTime)
  else decide (a.order < b.order)

def State.insertOrdered (s : State) (p : Nat) (w : Waiting) : List Waiting → List Waiting
  | [] => [w]
  | x :: xs => if s.before p w x then w :: x :: xs else x :: s.insertOrdered p w xs

def State.orderOf (s : State) (p : Nat) : List Waiting := (s.part p).waiting.foldr (s.insertOrdered p) []

/-- Replace the waiting record of the same order number. -/
def State.setWaiting (s : State) (p : Nat) (w : Waiting) : State :=
  let x := s.part p
  s.setPart p { x with waiting := x.waiting.map (fun y => if y.order = w.order then w else y) }

/-- Remove a record from its queue; a reservation made for it ends. -/
def State.removeWaiting (s : State) (p : Nat) (w : Waiting) : State :=
  let x := s.part p
  let s := s.setPart p { x with waiting := x.waiting.filter (fun y => y.order ≠ w.order) }
  match w.reserved with
  | some (core, _) => s.setCore core { (s.core core) with reserved := none }
  | none => s

/-! ## Groups and starting (R76, R78) -/

def State.unitA (s : State) (cl : Nat) : Option WorkUnit := (s.bank (2 * cl)).unit

/-- A cluster of a core held by its reservation. -/
def Core.holds (c : Core) (k : Nat) : Bool :=
  match c.reserved with
  | some (base, width, _) => decide (base ≤ k) && decide (k < base + width)
  | none => false

/-- Bank A of cluster k of a core holds no unit and no reservation holds it. -/
def State.freeCluster (s : State) (core k : Nat) : Bool :=
  (s.unitA (4 * core + k)).isNone && !(s.core core).holds k

def groupsOf (width : Nat) : List Nat := match width with | 1 => [0, 1, 2, 3] | 2 => [0, 2] | _ => [0]

def State.groupWith (ok : Nat → Bool) (width : Nat) : Option Nat :=
  (groupsOf width).find? (fun g => (List.range width).all (fun i => ok (g + i)))

def State.freeGroup (s : State) (core width : Nat) : Option Nat := State.groupWith (s.freeCluster core) width

/-- The group of a width with most free clusters, lowest-numbered on a tie (R76). -/
def State.bestGroup (s : State) (core width : Nat) : Nat :=
  let free := fun g => ((List.range width).filter (fun i => s.freeCluster core (g + i))).length
  (groupsOf width).foldl (fun (b : Nat) g => if free b < free g then g else b) 0

/-- The state a member's bank starts with (R48, R78). -/
def startBank (u : WorkUnit) : Bank :=
  let s := SMap.set 0 (SMap.set 0 (SMap.set 0 (SMap.set 0 (SMap.set 0 [] 1 u.s1) 2 u.s2) 3 (BitVec.ofNat 64 u.member)) 4
    (BitVec.ofNat 64 u.width)) 63 u.crec.w1
  { s := s, pc := u.crec.code, issueWidth := u.width, unit := some u, progress := u.startTime }

/-- The first placement on an IDLE island wakes it (R423). -/
def State.wakeIsland (s : State) (i : Nat) : State :=
  if SMap.get 0 s.mgmt.domState i = 1 then
    { s with mgmt := { s.mgmt with domState := SMap.set 0 s.mgmt.domState i 0 } }
  else s

/-- Start a removed record on the clusters from `first` on, in bank A or B (R48, R77, R78). -/
def State.startUnit (s : State) (p : Nat) (w : Waiting) (first : Nat) (bankB : Bool) : State :=
  let s := s.wakeIsland (islandOf (first / 4))
  let x := s.part p
  let width := w.crec.width
  let u : WorkUnit := { id := s.unitNo, part := p, asid := w.asid, crec := w.crec, s1 := w.s1, s2 := w.s2, enqTime := w.enqTime,
                        order := w.order, base := first, width := width, member := 0, startTime := s.now,
                        committed := w.crec.commitAtStart, commitTime := s.now, budget := x.commitBudget.toNat }
  let s := (List.range width).foldl (fun (s : State) i =>
    s.setBank (2 * (first + i) + (if bankB then 1 else 0)) (startBank { u with member := i })) s
  let s := { s with unitNo := s.unitNo + 1 }
  let x := s.part p
  s.setPart p { x with schedPops := x.schedPops + 1 }

/-- The record's affinity names a core that is not `core`, and still binds (R30, R76). -/
def State.affinityBlocks (s : State) (p : Nat) (w : Waiting) (core : Nat) : Bool :=
  let a := w.crec.affinity
  a != 0xFFFF && a != core && s.coreIn p a
    && decide (s.now.toNat < w.enqTime.toNat + (s.part p).affinityWait.toNat * 1000)

/-! ## Placing (R76) -/

/-- A record that did not fit is passed over: its skips rise, and at 4 it may reserve a group. -/
def State.passOver (s : State) (p core : Nat) (m : Waiting) : State :=
  let m := { m with skips := Nat.min (m.skips + 1) 4 }
  if m.skips = 4 ∧ m.reserved = none ∧ (s.core core).reserved = none then
    let g := s.bestGroup core m.crec.width
    let s := s.setCore core { (s.core core) with reserved := some (g, m.crec.width, m.order) }
    let x := s.part p
    let s := s.setPart p { x with schedReserves := x.schedReserves + 1 }
    s.setWaiting p { m with reserved := some (core, g) }
  else s.setWaiting p m

/-- One pass over the order; none when it starts nothing, with the state after the removals it makes. -/
def State.placeScan (s : State) (p core : Nat) : Nat → List Waiting → List Waiting → State × Bool
  | _, _, [] => (s, false)
  | examined, misfits, w :: ws =>
    let s := s.seeRecord p w.crec
    if s.recordCancelled p w.crec then
      ((s.removeWaiting p w).retireRecord p w.crec core).placeScan p core examined misfits ws
    else if examined = 9 then (s, false)
    else if s.affinityBlocks p w core || w.reserved.isSome then s.placeScan p core (examined + 1) misfits ws
    else match s.freeGroup core w.crec.width with
      | none => s.placeScan p core (examined + 1) (misfits ++ [w]) ws
      | some g =>
        let s := (s.removeWaiting p w).startUnit p w (4 * core + g) false
        (misfits.foldl (fun (s : State) m => s.passOver p core m) s, true)

def State.placePass (s : State) (p core : Nat) : State × Bool :=
  let held := match (s.core core).reserved with
    | some (g, width, order) =>
      match (s.part p).waiting.find? (fun (w : Waiting) => decide (w.order = order)) with
      | some m => some (g, width, m)
      | none => none
    | none => none
  match held with
  | some (g, width, m) =>
    let s := s.seeRecord p m.crec
    if s.recordCancelled p m.crec then ((s.removeWaiting p m).retireRecord p m.crec core, true)
    else if (List.range width).all (fun i => (s.unitA (4 * core + g + i)).isNone) then
      ((s.removeWaiting p m).startUnit p m (4 * core + g) false, true)
    else s.placeScan p core 0 [] (s.orderOf p)
  | none => s.placeScan p core 0 [] (s.orderOf p)

/-- Passes until one starts nothing; a core has four clusters, so five passes and a cancelled reservation are enough. -/
def State.placeLoop (s : State) (p core : Nat) : Nat → State
  | 0 => s
  | n + 1 =>
    match s.placePass p core with
    | (s, true) => s.placeLoop p core n
    | (s, false) => s

/-- The unit in bank A of a cluster waits for the answer to a page fault of one of its members (R259-R261). -/
def State.awaitsPage (s : State) (cl : Nat) : Bool :=
  match s.unitA cl with
  | some u => (List.range u.width).any (fun i => match (s.bank (2 * (u.base + i))).page with
      | some w => !w.ids.isEmpty
      | none => false)
  | none => false

/-- Bank A of a cluster is about to resume: no answer is awaited and no member's bank B holds a unit (R260, R261). -/
def State.resumeDue (s : State) (cl : Nat) : Bool :=
  match s.unitA cl with
  | some u => !s.awaitsPage cl && (List.range u.width).all (fun i => (s.bank (2 * (u.base + i) + 1)).unit.isNone)
  | none => true

/-- What reading the entries of all waiting records does to their lines. -/
def State.seeWaiting (s : State) (p : Nat) : State := (s.part p).waiting.foldl (fun (s : State) w => s.seeRecord p w.crec) s

/-- Bank B's pop (R77): the first of the first 9 records not cancelled that qualifies, until bank A can resume. -/
def State.popB (s : State) (p cl : Nat) : State :=
  if s.coreIn p (cl / 4) && (s.cluster cl).activeB && (s.bank (2 * cl + 1)).unit.isNone && !s.resumeDue cl then
    let s := s.seeWaiting p
    let ws := ((s.orderOf p).filter (fun w => !s.recordCancelled p w.crec)).take 9
    match ws.find? (fun w => w.crec.width == 1 && w.crec.bankBOk && !s.affinityBlocks p w (cl / 4) && w.reserved.isNone) with
    | some w => (s.removeWaiting p w).startUnit p w cl true
    | none => s
  else s

/-- The placer of a core, and the pops of its bank Bs (R76, R77). -/
def State.placeCore (s : State) (core : Nat) : State :=
  match s.partOfCore core with
  | none => s
  | some p =>
    if s.coreIn p core then
      let s := s.placeLoop p core 6
      (List.range 4).foldl (fun (s : State) k => s.popB p (4 * core + k)) s
    else s

/-! ## Enqueueing and pre-emption (R72, R74, R80) -/

/-- An enqueue at a level fails: the level holds 65,536 records (R72), or the Crock that homes the partition's queues has no room (R73,
R387). -/
def State.levelFull (s : State) (p level : Nat) : Bool :=
  s.crockFullAt (p % 4) p || decide (65536 ≤ ((s.part p).waiting.filter (fun w => w.crec.level == level)).length)

/-- Set the victim mark, with the record it makes room for, or clear it, on every member of a unit. -/
def markVictim (id : Nat) (v : Option Nat) : SMap Bank → SMap Bank
  | [] => []
  | (k, b) :: m => (k, match b.unit with
      | some u => if u.id = id then { b with unit := some { u with victim := v.isSome, victimFor := v.getD 0 } } else b
      | none => b) :: markVictim id v m

/-- Units whose pre-emption would make room for a record, with the group each would give (R80): of several groups the lowest-numbered,
whether or not a cluster of the unit is in it (log 55). -/
def State.victims (s : State) (p : Nat) (w : Waiting) : List (WorkUnit × Nat) :=
  (s.coresOf p).flatMap (fun core =>
    (List.range 4).filterMap (fun k =>
      match s.unitA (4 * core + k) with
      | some u =>
        let ok := fun j => s.freeCluster core j || decide (u.base ≤ 4 * core + j ∧ 4 * core + j < u.base + u.width)
        if u.member = 0 ∧ !u.committed ∧ !u.victim ∧ (s.core core).reserved = none
            ∧ s.eff p w + (s.part p).preemptMargin.toNat < u.crec.level ∧ !s.affinityBlocks p w core then
          match State.groupWith ok w.crec.width with
          | some g => some (u, g)
          | none => none
        else none
      | none => none))

/-- The larger level, then the later start, then the lower core and cluster (R80). -/
def betterVictim (a b : WorkUnit × Nat) : Bool :=
  if a.1.crec.level ≠ b.1.crec.level then decide (b.1.crec.level < a.1.crec.level)
  else if a.1.startTime ≠ b.1.startTime then decide (b.1.startTime < a.1.startTime)
  else decide (a.1.base < b.1.base)

/-- The reservation of a record ends, and its core holds none. -/
def State.unreserve (s : State) (p : Nat) (w : Waiting) : State :=
  match w.reserved with
  | some (core, _) => (s.setCore core { (s.core core) with reserved := none }).setWaiting p { w with reserved := none }
  | none => s

/-- Consider pre-emption for a record that every placer has declined (R80). A reservation that skips gave it in the same enqueue ends then,
since a record has one reservation (log 55). -/
def State.preempt (s : State) (p order : Nat) : State :=
  match (s.part p).waiting.find? (fun (w : Waiting) => decide (w.order = order)) with
  | none => s
  | some w =>
    match s.victims p w with
    | [] => s
    | v :: vs =>
      let (u, g) := vs.foldl (fun (b : WorkUnit × Nat) x => if betterVictim x b then x else b) v
      let core := u.base / 4
      let s := s.unreserve p w
      let s := { s with banks := markVictim u.id (some order) s.banks }
      let s := s.setCore core { (s.core core) with reserved := some (g, w.crec.width, w.order) }
      s.setWaiting p { w with reserved := some (core, g) }

/-- Put a record at the end of its level's queue with a fresh stamp (R72, R74). -/
def State.pushWaiting (s : State) (p : Nat) (r : Record) (s1 s2 : BitVec 64) (asid : BitVec 16) : State :=
  let x := s.part p
  let w : Waiting := { crec := r, s1 := s1, s2 := s2, asid := asid, enqTime := s.now, order := x.nextOrder }
  s.setPart p { x with waiting := x.waiting ++ [w], nextOrder := x.nextOrder + 1 }

/-- Enqueue by SPAWN, JDEC or admission: every placer of the partition runs (R76), and pre-emption is considered for a record that all of
them decline (R72, R80). -/
def State.enqueue (s : State) (p : Nat) (r : Record) (s1 s2 : BitVec 64) (asid : BitVec 16) : State :=
  let order := (s.part p).nextOrder
  let s := s.pushWaiting p r s1 s2 asid
  ((s.coresOf p).foldl (fun (t : State) core => t.placeCore core) s).preempt p order

/-- Re-queue a discarded unit's record: with its stamp and headmark set (R81), or with a fresh stamp by YIELD (R157). -/
def State.requeue (s : State) (u : WorkUnit) (fresh : Bool) : State :=
  let x := s.part u.part
  let w : Waiting := { crec := u.crec, s1 := u.s1, s2 := u.s2, asid := u.asid, enqTime := if fresh then s.now else u.enqTime,
                       order := if fresh then x.nextOrder else u.order, headmark := !fresh }
  s.setPart u.part { x with waiting := x.waiting ++ [w], nextOrder := if fresh then x.nextOrder + 1 else x.nextOrder }

/-- A commit of a victim ends its pre-emption: the reservation made for its record, if it still stands, is cancelled (R82). -/
def State.lapsePreemption (s : State) (u : WorkUnit) : State :=
  let s := { s with banks := markVictim u.id none s.banks }
  let core := u.base / 4
  match (s.core core).reserved with
  | some (_, _, order) =>
    if order ≠ u.victimFor then s
    else
      let s := s.setCore core { (s.core core) with reserved := none }
      (match (s.part u.part).waiting.find? (fun (w : Waiting) => decide (w.order = order)) with
        | some w => s.setWaiting u.part { w with reserved := none }
        | none => s)
  | none => s

/-- Apply to every member of a unit. -/
def updUnit (id : Nat) (f : WorkUnit → WorkUnit) : SMap Bank → SMap Bank
  | [] => []
  | (k, b) :: m => (k, match b.unit with
      | some u => if u.id = id then { b with unit := some (f u) } else b
      | none => b) :: updUnit id f m

/-- The commit point of an uncommitted unit (R79, R83); a victim's pre-emption lapses (R82), and a cancel that has not discarded the unit
reaches it no more (R85). -/
def State.commitUnit (s : State) (u : WorkUnit) : State :=
  if u.committed then s
  else
    let budget := (s.part u.part).commitBudget.toNat
    let f := fun (x : WorkUnit) => { x with committed := true, cancelled := false, commitTime := s.now, spent := 0, budget := budget }
    let s := { s with banks := updUnit u.id f s.banks }
    if u.victim then s.lapsePreemption u else s

/-- A waiting record that YIELD would give way to (R157): as urgent, and R76 could start it on the unit's own clusters once they are
free, by a reservation of them or among the first 9 records on clusters no reservation holds (log 56). R76 starts units in bank A only, so
that a unit in bank B gives way to none. -/
def State.yieldTo (s : State) (u : WorkUnit) (bank : Nat) : Bool :=
  let p := u.part
  let core := u.base / 4
  let own := fun k => decide (u.base ≤ 4 * core + k ∧ 4 * core + k < u.base + u.width)
  let open' := fun k => own k && !(s.core core).holds k
  let live := (s.orderOf p).filter (fun w => !s.recordCancelled p w.crec)
  let urgent := fun (w : Waiting) => decide (s.eff p w ≤ u.crec.level)
  decide (bank % 2 = 0) && s.coreIn p core
    && (live.any (fun w => urgent w && (match w.reserved with
          | some (c, g) => c == core && (List.range w.crec.width).all (fun i => own (g + i))
          | none => false))
      || (live.take 9).any (fun w => urgent w && w.reserved.isNone && !s.affinityBlocks p w core
          && (State.groupWith open' w.crec.width).isSome))

end Sys2Proof.Machine
end

