-- ==== Sys2Proof/Machine/Spad.lean ====
section
/-! DEFINITION. The scratchpad (R246-R248): 24 banks under a Reed-Solomon code, its reference tags, and its bytes as a core sees them. -/

namespace Sys2Proof.Machine

/-! ## GF(2^8) with polynomial 0x11D (R247) -/

def gfDouble (a : Nat) : Nat := if a < 128 then 2 * a else (2 * a) ^^^ 0x11D

/-- Product in GF(2^8), over the low n bits of b. -/
def gfMulN : Nat → Nat → Nat → Nat
  | 0, _, _ => 0
  | n + 1, a, b => (if b % 2 = 1 then a else 0) ^^^ gfMulN n (gfDouble a) (b / 2)
def gfMul (a b : Nat) : Nat := gfMulN 8 a b

/-- α^n. -/
def gfPow : Nat → Nat
  | 0 => 1
  | n + 1 => gfDouble (gfPow n)

/-- Inverse, as the 254th power: a^254 = a^2 · a^4 · … · a^128. -/
def gfInv (a : Nat) : Nat :=
  let a2 := gfMul a a; let a4 := gfMul a2 a2; let a8 := gfMul a4 a4; let a16 := gfMul a8 a8
  let a32 := gfMul a16 a16; let a64 := gfMul a32 a32; let a128 := gfMul a64 a64
  gfMul a2 (gfMul a4 (gfMul a8 (gfMul a16 (gfMul a32 (gfMul a64 a128)))))

def bankBytes : Nat := 262144
/-- Bytes that h0 reaches (R246). -/
def spadBytes : Nat := 5767168

/-- The bank a half of sp_failed holds failed: the one being rebuilt, else the one marked; a number above 23 is ignored (R248). -/
def markedBank (rebuild : Option Nat) (half : Nat) : Option Nat :=
  match rebuild with
  | some b => if b < 24 then some b else none
  | none => if half / 32 % 2 = 1 ∧ half % 32 < 24 then some (half % 32) else none

/-- The banks that are failed (R248). -/
def Core.failed (c : Core) : List Nat :=
  let f0 := markedBank c.rebuild0 (bits c.spFailed 0 8)
  let f1 := markedBank c.rebuild1 (bits c.spFailed 8 8)
  f0.toList ++ (if f0 = f1 then [] else f1.toList)

/-- The stored byte of bank b at offset t. -/
def Core.cell (c : Core) (b t : Nat) : Nat := (SMap.get 0 c.spad (b * bankBytes + t)).toNat
def Core.setCell (c : Core) (b t v : Nat) : Core := { c with spad := SMap.set 0 c.spad (b * bankBytes + t) (BitVec.ofNat 8 v) }

/-- Syndromes over the banks not in `skip` (R247). -/
def Core.syndromes (c : Core) (t : Nat) (skip : List Nat) : Nat × Nat :=
  (List.range 24).foldl (fun (r : Nat × Nat) b =>
    if skip.contains b then r else
      let v := c.cell b t
      if v = 0 then r else (r.1 ^^^ v, r.2 ^^^ gfMul v (gfPow b))) (0, 0)

/-- The outcome of reading the codeword at offset t: the corrections (bank, byte), whether a soft error was corrected, or none when
it is uncorrectable (R247). -/
def Core.decodeWord (c : Core) (t : Nat) : Option (List (Nat × Nat) × Bool) :=
  match c.failed with
  | [] =>
    let (s0, s1) := c.syndromes t []
    if s0 = 0 ∧ s1 = 0 then some ([], false)
    else if s0 ≠ 0 ∧ s1 ≠ 0 then
      match firstBelow (fun j => gfMul s0 (gfPow j) == s1) 24 with
      | some j => some ([(j, c.cell j t ^^^ s0)], true)
      | none => none
    else none
  | [f] =>
    let (s0, s1) := c.syndromes t [f]
    if gfMul s0 (gfPow f) = s1 then some ([(f, s0)], false) else none
  | f :: g :: _ =>
    let (s0, s1) := c.syndromes t [f, g]
    -- c_f + c_g = s0 and c_f α^f + c_g α^g = s1
    let cg := gfMul (s1 ^^^ gfMul s0 (gfPow f)) (gfInv (gfPow f ^^^ gfPow g))
    some ([(f, s0 ^^^ cg), (g, cg)], false)

/-- Write corrections back, but not into failed banks, whose cells stay unchanged (R248). -/
def Core.writeBack (c : Core) (t : Nat) : List (Nat × Nat) → Core
  | [] => c
  | (b, v) :: rest => (if c.failed.contains b then c else c.setCell b t v).writeBack t rest

/-- Count an error in sp_failed (R248): ce_count from bit 16, ue_count from bit 32, each saturating. -/
def Core.countError (c : Core) (lo : Nat) : Core :=
  { c with spFailed := if bits c.spFailed lo 16 = 0xFFFF then c.spFailed else c.spFailed + BitVec.ofNat 64 (2 ^ lo) }

/-- Read the data byte of bank b at offset t: the byte, or none when uncorrectable; ce_count and ue_count follow (R247, R248). -/
def Core.readCell (c : Core) (b t : Nat) : Core × Option Nat :=
  match c.decodeWord t with
  | none => (c.countError 32, none)
  | some (fix, soft) =>
    let c' := if soft then (c.writeBack t fix).countError 16 else c
    match fix.find? (fun x => x.1 == b) with
    | some x => (c', some x.2)
    | none => (c', some (c.cell b t))

/-- The data bytes of a codeword, corrected where they can be. -/
def Core.dataOf (c : Core) (t : Nat) : List Nat :=
  let fix := match c.decodeWord t with | some (f, _) => f | none => []
  (List.range 22).map (fun b => match fix.find? (fun x => x.1 == b) with | some x => x.2 | none => c.cell b t)

/-- Check bytes of banks 22 and 23 that make both syndromes zero (R247). -/
def checkBytes (data : List Nat) : Nat × Nat :=
  let a := data.foldl (· ^^^ ·) 0
  let b := (List.range 22).foldl (fun r i => r ^^^ gfMul (data.getD i 0) (gfPow i)) 0
  let c22 := gfMul (b ^^^ gfMul a (gfPow 23)) (gfInv (gfPow 22 ^^^ gfPow 23))
  (c22, a ^^^ c22)

/-- Write a data byte: the whole codeword is made consistent, except the cells of failed banks (R247, R248). -/
def Core.writeCell (c : Core) (b t v : Nat) : Core :=
  let data := (c.dataOf t).set b v
  let ck := checkBytes data
  c.writeBack t (cellsAt 0 data ++ [(22, ck.1), (23, ck.2)])

/-- Read n bytes at h0 offset o: none when any codeword is uncorrectable. -/
def Core.spRead (c : Core) (o : Nat) : Nat → Core × Option (List Byte)
  | 0 => (c, some [])
  | n + 1 =>
    match c.readCell (o / bankBytes) (o % bankBytes) with
    | (c, none) => (c, none)
    | (c, some v) =>
      match c.spRead (o + 1) n with
      | (c, none) => (c, none)
      | (c, some vs) => (c, some (BitVec.ofNat 8 v :: vs))

/-- Write the tag of a word, whose stored bit is then as written. -/
def Core.setSpTag (c : Core) (o : Nat) (t : Bool) : Core :=
  { c with spadTags := SMap.set false c.spadTags (o / 8) t, tagFlips := SMap.set false c.tagFlips (o / 8) false }

/-- The tags as stored that differ from those written in the 64 bits with the tag of a word (R246). -/
def Core.flipsBy (c : Core) (o : Nat) : List Nat := (c.tagFlips.filter (fun x => x.1 / 64 == o / 512)).map (·.1)

/-- Read the tag of the word at an offset: the code over its 64 bits corrects one flipped bit, and more make them uncorrectable (R246, R413). -/
def Core.readTag (c : Core) (o : Nat) : Core × Option Bool :=
  match c.flipsBy o with
  | [] => (c, some (SMap.get false c.spadTags (o / 8)))
  | [w] => ({ c with tagFlips := SMap.set false c.tagFlips w false }.countError 16, some (SMap.get false c.spadTags (o / 8)))
  | _ => (c.countError 32, none)

/-- Write cells at h0 offsets, clearing the tags of the words touched (R35). -/
def Core.spCells (c : Core) : List (Nat × Byte) → Core
  | [] => c
  | (o, v) :: rest =>
    let c := c.writeCell (o / bankBytes) (o % bankBytes) v.toNat
    (c.setSpTag o false).spCells rest

def Core.spTag (c : Core) (o : Nat) : Bool := SMap.get false c.spadTags (o / 8)

/-- A little-endian value read without error handling: an uncorrectable byte reads as stored. -/
def Core.spPeek (c : Core) (o n : Nat) : Nat :=
  ofBytes ((List.range n).map (fun i => BitVec.ofNat 8 ((c.dataOf ((o + i) % bankBytes)).getD ((o + i) / bankBytes) 0)))

/-- Rewrite every byte of a bank from the others (R248): the cells named are those of offsets that hold anything. -/
def Core.rebuild (c : Core) (b : Nat) : List Nat → Core
  | [] => c
  | t :: ts =>
    match c.decodeWord t with
    | some (fix, _) =>
      let c' := match fix.find? (fun (x : Nat × Nat) => x.1 == b) with
        | some x => c.setCell b t x.2
        | none => c
      c'.rebuild b ts
    | none => c.rebuild b ts

/-- Offsets within a bank at which any bank stores a nonzero byte. -/
def Core.usedOffsets (c : Core) : List Nat := dedupNat (c.spad.map (fun e => e.1 % bankBytes))

/-- The rebuilds of the two halves of sp_failed end, and their fail bits read 0 (R248). -/
def Core.endRebuild0 (c : Core) : Core :=
  match c.rebuild0 with
  | some b => { (c.rebuild b c.usedOffsets) with rebuild0 := none, spFailed := c.spFailed &&& ~~~(0x20#64) }
  | none => c
def Core.endRebuild1 (c : Core) : Core :=
  match c.rebuild1 with
  | some b => { (c.rebuild b c.usedOffsets) with rebuild1 := none, spFailed := c.spFailed &&& ~~~(0x2000#64) }
  | none => c

end Sys2Proof.Machine
end

