-- ==== Sys2Proof/Machine/Queue.lean ====
section
/-! DEFINITION. The wide queues (R104-R109): fields of a template, tokens, the scoreboard, starting and completing operations. -/

namespace Sys2Proof.Machine

/-! ## Templates (R101) -/

/-- Field Fk of a template. -/
def fieldOf (t : BitVec 128) (k : Nat) : BitVec 16 := t.extractLsb' (16 * k) 16
def setField (t : BitVec 128) (k : Nat) (v : BitVec 16) : BitVec 128 :=
  (t &&& ~~~(BitVec.ofNat 128 (0xFFFF * 2 ^ (16 * k)))) ||| BitVec.ofNat 128 (v.toNat * 2 ^ (16 * k))
def wopOf (t : BitVec 128) : Nat := bits t 8 8

/-- R105: the queue of a wide opcode. -/
def routeOf (wop : Nat) : QueueName := if wop < 0x40 then .L else if wop < 0xC0 then .C else .S

def queueCode (q : QueueName) : BitVec 2 := match q with | .L => 0 | .C => 1 | .S => 2

def Cluster.queue (c : Cluster) (q : QueueName) : List QEntry := match q with | .L => c.qL | .C => c.qC | .S => c.qS
def Cluster.setQueue (c : Cluster) (q : QueueName) (es : List QEntry) : Cluster :=
  match q with | .L => { c with qL := es } | .C => { c with qC := es } | .S => { c with qS := es }
def Cluster.halted (c : Cluster) (q : QueueName) : Bool := match q with | .L => c.haltL | .C => c.haltC | .S => c.haltS
def Cluster.setHalt (c : Cluster) (q : QueueName) (v : Bool) : Cluster :=
  match q with | .L => { c with haltL := v } | .C => { c with haltC := v } | .S => { c with haltS := v }

def State.setQueue (s : State) (cl : Nat) (q : QueueName) (es : List QEntry) : State :=
  s.setCluster cl ((s.cluster cl).setQueue q es)

/-! ## Applying writes (R108) -/

def setCells {α : Type} [DecidableEq α] (d : α) (m : SMap α) : List (Nat × α) → SMap α
  | [] => m
  | (k, v) :: cs => setCells d (SMap.set d m k v) cs

/-- Number of a scratchpad line as a monitor names it. -/
def spadLine (core off : Nat) : Nat := 2 ^ 50 + core * 2 ^ 16 + off / 128

/-- Number of a scratchpad word as an FLWAIT names it. -/
def spadWord (core off : Nat) : Nat := 2 ^ 60 + core * 2 ^ 20 + off / 8

/-- Write bytes of a core's scratchpad: tags are cleared, and monitors and waits on the words see it (R35, R396, R399). -/
def State.spStore (s : State) (core : Nat) (cells : List (Nat × Byte)) : State :=
  let s := s.setCore core ((s.core core).spCells cells)
  let banks := hitMonitors (dedupNat (cells.map (fun (c : Nat × Byte) => spadLine core c.1))) s.banks
  let words := dedupNat (cells.map (fun (c : Nat × Byte) => spadWord core c.1))
  { s with banks := tellWatches words (fun w => (s.core core).spPeek (8 * (w % 2 ^ 20)) 8) banks }

/-- The byte with one nibble replaced (R162). -/
def withNibble (b : Byte) (high : Bool) (v : BitVec 4) : Byte :=
  if high then v ++ b.extractLsb' 0 4 else b.extractLsb' 4 4 ++ v

/-- Write nibbles of a core's scratchpad, the other nibble of each byte unchanged. -/
def State.spNibbles (s : State) (core : Nat) : List (Nat × BitVec 4) → State
  | [] => s
  | (k, v) :: rest =>
    let old := BitVec.ofNat 8 ((s.core core).spPeek (k / 2) 1)
    (s.spStore core [(k / 2, withNibble old (k % 2 == 1) v)]).spNibbles core rest

/-- Remove one pending mark of a register. -/
def eraseOne (n : Nat) : List Nat → List Nat
  | [] => []
  | x :: xs => if x = n then xs else x :: eraseOne n xs

/-- Make one write of an operation of bank b. -/
def State.applyWrite (s : State) (b : Nat) (w : WideWrite) : State :=
  let bk := s.bank b
  let core := b / 8
  let c := s.core core
  match w with
  | .vreg n lanes => s.setBank b { bk with v := setCells 0 bk.v (cellsAt (64 * n) lanes) }
  | .preg n v => if n = 0 then s else s.setBank b { bk with p := SMap.set 0 bk.p n v }
  | .push q v => s.setCore core { c with q := SMap.set [] c.q q (SMap.get [] c.q q ++ [v]) }
  | .flags f => s.setBank b { bk with fpflags := bk.fpflags ||| f }
  | .sreg n v => s.setBank b { bk with s := (if n = 0 then bk.s else SMap.set 0 bk.s n v), pend := eraseOne n bk.pend }
  | .spad cells => s.spStore core cells
  | .nibbles cells => s.spNibbles core cells
  | .mem cells => (s.store cells).clearPoison (wholeLines cells)
  | .tile t cells => s.setCore core { c with tiles := setCells 0 c.tiles (cells.map (fun x => (32768 * t + x.1, x.2))) }
  | .acc cells => s.setCluster (b / 2) { (s.cluster (b / 2)) with acc := setCells 0 (s.cluster (b / 2)).acc cells }
  | .tab n entries => s.setCore core { c with tab := setCells 0 c.tab (cellsAt (16 * n) entries),
                                              tabValid := c.tabValid ||| BitVec.ofNat 16 (2 ^ n) }
  | .bind x => s.setBank b { bk with binding := some x }
  | .gstat v => s.setBank b { bk with gStatus := v }
  | .rvf cells => s.setCore core { c with rvf := setCells 0 c.rvf cells, rvfBad := setTags c.rvfBad false (cells.map (·.1)) }

def State.applyWrites (s : State) (b : Nat) : List WideWrite → State
  | [] => s
  | w :: ws => (s.applyWrite b w).applyWrites b ws

/-- The queue registers that an operation's pushes need have room (R202). -/
def State.pushesFit (s : State) (core : Nat) (ws : List WideWrite) : Bool :=
  ws.all (fun w => match w with
    | .push q _ => decide ((SMap.get [] (s.core core).q q).length < 8)
    | _ => true)

/-! ## Tokens (R107) -/

/-- Every token the operation waits on is there. -/
def Bank.tokensHeld (b : Bank) (q : QueueName) (tok : BitVec 4) : Bool :=
  match q with
  | .L => !bit tok 2 || b.tokCL != 0
  | .C => (!bit tok 3 || b.tokLC != 0) && (!bit tok 2 || b.tokSC != 0)
  | .S => !bit tok 3 || b.tokCS != 0

/-- Take the tokens at a start. -/
def Bank.takeTokens (b : Bank) (q : QueueName) (tok : BitVec 4) : Bank :=
  match q with
  | .L => if bit tok 2 then { b with tokCL := b.tokCL - 1 } else b
  | .C =>
    let b := if bit tok 3 then { b with tokLC := b.tokLC - 1 } else b
    if bit tok 2 then { b with tokSC := b.tokSC - 1 } else b
  | .S => if bit tok 3 then { b with tokCS := b.tokCS - 1 } else b

/-- Signal at completion: the bank, and whether a counter would have passed 15. -/
def Bank.signal (b : Bank) (q : QueueName) (tok : BitVec 4) : Bank × Bool :=
  match q with
  | .L => if bit tok 1 then ({ b with tokLC := satInc b.tokLC }, b.tokLC == 15) else (b, false)
  | .C =>
    let (b, o1) := if bit tok 1 then ({ b with tokCS := satInc b.tokCS }, b.tokCS == 15) else (b, false)
    if bit tok 0 then ({ b with tokCL := satInc b.tokCL }, o1 || b.tokCL == 15) else (b, o1)
  | .S => if bit tok 0 then ({ b with tokSC := satInc b.tokSC }, b.tokSC == 15) else (b, false)

/-! ## Starting (R105, R106) -/

def QEntry.queued (e : QEntry) : Bool := e.phase == .queued
def QEntry.copying (e : QEntry) : Bool := match e.phase with | .copying _ _ => true | _ => false
def QEntry.draining (e : QEntry) : Bool := match e.phase with | .draining _ => true | _ => false
def QEntry.occupying (e : QEntry) : Bool := match e.phase with | .occupying _ => true | _ => false

/-- a issued before b, counted modulo 2^32 (R405). -/
def seqBefore (a b : BitVec 32) : Bool := a != b && decide ((b - a).toNat < 2 ^ 31)

/-- A Vat command (R210). -/
def QEntry.isVat (e : QEntry) : Bool := wopOf e.tmpl == 0x80 || wopOf e.tmpl == 0x81

def meets (xs ys : List Nat) : Bool := xs.any ys.contains

/-- An older incomplete operation stands in the way of a younger one (R106). Vat commands add to one accumulator in turn (R214). -/
def blocks (old new : QEntry) : Bool :=
  if old.isVat && old.draining then
    meets old.writes (new.reads ++ new.writes) && !new.isVat
  else
    meets old.writes (new.reads ++ new.writes) || ((old.queued || old.copying || old.occupying) && meets old.reads new.writes)

/-- The first operation of a queue that has not started, when nothing of its own queue stands before it: an earlier operation must
have completed, but a Vat command may follow one that has left the array (R105, R214). -/
def nextQueued : List QEntry → Option QEntry
  | [] => none
  | e :: es =>
    if e.queued then some e
    else if e.isVat && e.draining then
      match nextQueued es with
      | some x => if x.isVat then some x else none
      | none => none
    else none

/-- The operation of a queue that can start now (R105-R107). -/
def State.ready (s : State) (cl : Nat) (q : QueueName) : Option QEntry :=
  let c := s.cluster cl
  let b := s.bank (s.activeBank cl)
  if c.halted q then none
  else match nextQueued (c.queue q) with
    | none => none
    | some e =>
      let others := (c.qL ++ c.qC ++ c.qS).filter (fun x => seqBefore x.seq e.seq)
      if b.tokensHeld q e.tok && !others.any (fun x => blocks x e) then some e else none

/-- The operation of a queue that moves next: a copy between two of its windows, or one that can start now. -/
def State.mover (s : State) (cl : Nat) (q : QueueName) : Option QEntry :=
  match (s.cluster cl).queue q with
  | e :: _ => if e.copying then some e else s.ready cl q
  | [] => none

/-- Scalar registers that an NFETCH, a PKRD or a VLEASE of a bank on its way will write (R216, R276, R313): each was issued before whatever of
the bank may name the register now (R109). -/
def State.replyRegs (s : State) (b : Nat) : List Nat :=
  (s.bank b).nfetch.map (·.reg) ++ (s.bank b).vregs.map (·.2)
    ++ ((s.cluster (b / 2)).packets.filterMap (fun (x : Nat × Option Packet) => match x.2 with
      | some p => if !p.write && !p.failed && p.bank == b then some p.reg else none
      | none => none))

/-- Nothing earlier of the bank still has to write a status word, or a reply, that this operation writes too (R109). -/
def State.statusNext (s : State) (cl : Nat) (e : QEntry) : Bool :=
  let c := s.cluster cl
  (c.qL ++ c.qC ++ c.qS).all (fun x => !seqBefore x.seq e.seq || !meets x.dests e.dests)
    && !meets (s.replyRegs (s.activeBank cl)) e.dests

/-- Replace the first operation of a queue that `pick` takes. -/
def replaceFirst (pick : QEntry → Bool) (e : QEntry) : List QEntry → List QEntry
  | [] => []
  | x :: xs => if pick x then e :: xs else x :: replaceFirst pick e xs

def dropEntry (seq : BitVec 32) : List QEntry → List QEntry
  | [] => []
  | x :: xs => if x.seq = seq then xs else x :: dropEntry seq xs

/-- The operation that can start next does: it takes its tokens and stands in a new phase. -/
def State.startOp (s : State) (cl : Nat) (q : QueueName) (e : QEntry) (ph : OpPhase) : State :=
  let b := s.activeBank cl
  let s := s.setBank b { ((s.bank b).takeTokens q e.tok) with progress := s.now }
  s.setQueue cl q (replaceFirst (·.queued) { e with phase := ph } ((s.cluster cl).queue q))

/-- A copy that has started stands in a new phase: it neither starts nor completes (R416). -/
def State.moveOp (s : State) (cl : Nat) (q : QueueName) (e : QEntry) (ph : OpPhase) : State :=
  s.setQueue cl q (replaceFirst (·.copying) { e with phase := ph } ((s.cluster cl).queue q))

/-! ## Completing and faulting (R107, R108, R405) -/

/-- The 4-byte words of the core's tile registers that some writes touch. -/
def tileWords (ws : List WideWrite) : List Nat :=
  dedupNat (ws.flatMap (fun w => match w with | .tile t cells => cells.map (fun c => 8192 * t + c.1 / 4) | _ => []))

/-- An operation of another cluster has executed and writes some of the words too. -/
def QEntry.races (words : List Nat) (e : QEntry) : Bool :=
  match e.phase with | .executed ws => meets words (tileWords ws) | _ => false

/-- What is left of an executed operation's tile writes when the write that completes wins some of the words. -/
def QEntry.lose (won : Nat → Bool) (e : QEntry) : QEntry :=
  match e.phase with
  | .executed ws => { e with phase := .executed (ws.map (fun w => match w with
      | .tile t cells => .tile t (cells.filter (fun c => !won (8192 * t + c.1 / 4)))
      | w => w)) }
  | _ => e

/-- Clusters of one core that write a tile at once race word by word (R50): the completing operation's words win over the others', or lose
to them, as a free choice says (log 48). -/
def State.raceTiles (s : State) (cl : Nat) (ws : List WideWrite) : State :=
  let words := tileWords ws
  let rivals := ((List.range 4).map (4 * (cl / 4) + ·)).filter (fun k => decide (k ≠ cl)
    && ((s.cluster k).qL ++ (s.cluster k).qC ++ (s.cluster k).qS).any (QEntry.races words))
  if rivals.isEmpty then s
  else rivals.foldl (fun (s : State) k =>
    let c := s.cluster k
    let f := QEntry.lose (fun w => words.contains w && Config.raceWins s.freeNo w)
    { s.setCluster k { c with qL := c.qL.map f, qC := c.qC.map f, qS := c.qS.map f } with freeNo := s.freeNo + 1 }) s

/-- The first operation of a queue completes: its writes are made, it is counted, it signals. A signal past 15 is a deferred TOKEN. -/
def State.completeOp (s : State) (cl : Nat) (q : QueueName) (e : QEntry) (ws : List WideWrite) : State :=
  let b := s.activeBank cl
  let s := (s.raceTiles cl ws).applyWrites b ws
  let s := s.setQueue cl q (dropEntry e.seq ((s.cluster cl).queue q))
  let bk := s.bank b
  let (bk, past) := { bk with wdone := bk.wdone + 1, progress := s.now }.signal q e.tok
  if past then
    let t : Trap := { code := cTOKEN, deferred := true, wide := true, seq := e.seq, queue := queueCode q, info := zx e.word, time := s.now }
    (s.setBank b { bk with traps := bk.traps ++ [t] }).setCluster cl ((s.cluster cl).setHalt q true)
  else s.setBank b bk

/-- An operation faults: it is removed, its destinations are released, its queue halts and a deferred trap is pending (R405). -/
def State.failOp (s : State) (cl : Nat) (q : QueueName) (e : QEntry) (code : Code) (info : BitVec 64) : State :=
  let b := s.activeBank cl
  let bk := s.bank b
  let t : Trap := { code := code, deferred := true, wide := true, seq := e.seq, queue := queueCode q, info := info, time := s.now }
  let bk := { bk with traps := bk.traps ++ [t], wdone := bk.wdone + 1, progress := s.now,
                      pend := e.dests.foldl (fun p n => eraseOne n p) bk.pend }
  let s := s.setBank b bk
  s.setCluster cl (((s.cluster cl).setQueue q (dropEntry e.seq ((s.cluster cl).queue q))).setHalt q true)

/-- The writes of the first operation of a queue when it only has to complete. -/
def QEntry.done? (e : QEntry) : Option (List WideWrite) :=
  match e.phase with
  | .executed ws => some ws
  | _ => none

/-- Every wide operation of the bank has completed (R110, R392). -/
def Cluster.idle (c : Cluster) : Bool := c.qL.isEmpty && c.qC.isEmpty && c.qS.isEmpty

/-- Discard what is left in the queues of a cluster and release their halts. -/
def State.clearQueues (s : State) (cl : Nat) : State :=
  s.setCluster cl { (s.cluster cl) with qL := [], qC := [], qS := [], haltL := false, haltC := false, haltS := false }

/-- Apply to the operations of a bank. -/
def State.mapEntries (s : State) (b : Nat) (f : QEntry → QEntry) : State :=
  let c := s.cluster (b / 2)
  if s.activeBank (b / 2) = b then s.setCluster (b / 2) { c with qL := c.qL.map f, qC := c.qC.map f, qS := c.qS.map f }
  else s.setBank b { (s.bank b) with aside := (s.bank b).aside.map (fun x => (x.1, f x.2)) }

end Sys2Proof.Machine
end

