-- ==== Sys2Proof/Machine/Packet.lean ====
section
/-! DEFINITION. Packets at the home of their line, and posted adds at their Crock (R276-R279, R386, R398). -/

namespace Sys2Proof.Machine

def State.packet (s : State) (cl tag : Nat) : Option Packet := SMap.get none (s.cluster cl).packets tag

/-- The partition of a bank's unit. -/
def State.partOfBank (s : State) (b : Nat) : Nat := match (s.bank b).unit with | some u => u.part | none => 0

/-! ## Packets -/

/-- A deferred trap becomes pending in a bank. -/
def State.pendTrap (s : State) (b : Nat) (t : Trap) : State :=
  let bk := s.bank b
  s.setBank b { bk with traps := bk.traps ++ [{ t with time := s.now }] }

/-- The tag is free. -/
def State.freeTag (s : State) (cl tag : Nat) : State :=
  let b := s.activeBank cl
  let s := s.setBank b { (s.bank b) with progress := s.now }
  let c := s.cluster cl
  s.setCluster cl { c with packets := SMap.set none c.packets tag none }

def Packet.sector (p : Packet) : Nat := p.pa / 32

/-- Outstanding packets of a cluster; one that has faulted only holds its tag. -/
def Cluster.outstanding (c : Cluster) : List Packet := (c.packets.filterMap (·.2)).filter (fun p => !p.failed)

/-- R277: no earlier packet of the cluster must go first. -/
def Cluster.packetNext (c : Cluster) (p : Packet) : Bool :=
  c.outstanding.all (fun x => decide (p.seq ≤ x.seq)
    || (if p.write then !(x.write && x.sector == p.sector)
        else !(x.write && x.sector == p.sector) && !(!x.write && x.reg == p.reg && x.bank == p.bank)))

/-- A packet fault: the tag halts, a read's register is released, and a deferred trap is pending (R279, R405). -/
def State.packetFault (s : State) (cl tag : Nat) (p : Packet) (code : Code) : State :=
  let c := s.cluster cl
  let s := s.setCluster cl { c with packets := SMap.set none c.packets tag (some { p with failed := true }) }
  let bk := { (s.bank p.bank) with progress := s.now }
  let bk := if p.write then bk else { bk with pend := eraseOne p.reg bk.pend }
  (s.setBank p.bank bk).pendTrap p.bank
    { code := code, deferred := true, ptag := some (BitVec.ofNat 3 tag), info := p.va }

def Packet.cells (p : Packet) : List (Nat × Byte) :=
  ((List.range 8).filter (fun k => bit p.mask k)).map (fun k => (p.pa + k, p.data.extractLsb' (8 * k) 8))

/-- Data bytes a packet carries or asks for. -/
def Packet.size (p : Packet) : Nat := ((List.range 8).filter (fun k => bit p.mask k)).length

/-- The home performs a packet write (R276, R362). -/
def State.packetWrite (s : State) (cl tag : Nat) (p : Packet) : State :=
  match s.objectFault (some (cl / 4)) p.pa 8 true with
  | some c => s.packetFault cl tag p c
  | none =>
    match s.writeFault p.pa 8 with
    | (s, some c) => s.packetFault cl tag p c
    | (s, none) => (s.store p.cells).freeTag cl tag

/-- The home answers a packet read and the reply is written (R276). -/
def State.packetRead (s : State) (cl tag : Nat) (p : Packet) : State :=
  match s.objectFault (some (cl / 4)) p.pa 8 false with
  | some c => s.packetFault cl tag p c
  | none =>
    match s.readFault p.pa 8 with
    | (s, some c) => s.packetFault cl tag p c
    | (s, none) =>
      let v := ofBytes ((List.range 8).map (fun k => if bit p.mask k then s.byte (p.pa + k) else 0))
      (s.applyWrite p.bank (.sreg p.reg (BitVec.ofNat 64 v))).freeTag cl tag

/-! ## Posted adds (R398, R399) -/

/-- An operation at a Crock meets an uncorrectable error in the word of SRAM or overflow that it needs (R413). -/
def State.crockFails (s : State) (pa : Nat) : Bool := SMap.get false s.badCrock (pa / 8)
def State.clearCrock (s : State) (pa : Nat) : State := { s with badCrock := SMap.set false s.badCrock (pa / 8) false }

/-- A posted FLADD is performed at its Crock, or fails as a deferred trap. It is a synchronising access whatever its order (R399). -/
def State.performAdd (s : State) (b : Nat) (a : PostedAdd) : State :=
  let bk := s.bank b
  let s := s.setBank b { bk with fladds := bk.fladds.drop 1 }
  let fail := fun (s : State) (c : Code) => s.pendTrap b { code := c, deferred := true, info := a.va }
  if s.crockFails a.pa then fail (s.clearCrock a.pa) cPOISON
  else match s.objectFault (some (b / 8)) a.pa 8 true with
  | some c => fail s c
  | none =>
    match s.writeFault a.pa 8 with
    | (s, some c) => fail s c
    | (s, none) =>
      match s.syncAs a.mode (s.partOfBank b) (b / 8) a.scope a.pa with
      | (s, false) => fail s cSCOPE_MISMATCH
      | (s, true) => s.poke a.pa 8 (s.peek64 a.pa + a.v).toNat

/-! ## Accesses on their way that come before those of a bank (R367, R376, R428)

They are the bank's own, and those of the lower members of its group: word i of a bundle precedes word i + 1. -/

/-- Two byte ranges overlap. -/
def overlaps (a n b m : Nat) : Bool := decide (a < b + m) && decide (b < a + n)

/-- Outstanding packets of a bank. -/
def State.packetsOf (s : State) (b : Nat) : List Packet := (s.cluster (b / 2)).outstanding.filter (fun p => p.bank == b)

def LateStore.host (x : LateStore) : Bool := decide (memKind x.pa = MemKind.host)

/-- The banks of a core in which lower members of a unit may run. -/
def lowerBanks (b : Nat) : List Nat := (List.range (b % 8 / 2)).map (fun m => b / 8 * 8 + 2 * m + b % 2)

/-- Posted adds, late stores and packets of lower members that were issued in a group with the bank. -/
def State.lowerAdds (s : State) (b : Nat) : List PostedAdd :=
  (lowerBanks b).flatMap (fun k => (s.bank k).fladds.filter (fun f => decide (b ≤ f.last)))
def State.lowerLates (s : State) (b : Nat) : List LateStore :=
  (lowerBanks b).flatMap (fun k => (s.bank k).late.filter (fun x => decide (b ≤ x.last)))
def State.lowerPackets (s : State) (b : Nat) : List Packet :=
  (lowerBanks b).flatMap (fun k => (s.packetsOf k).filter (fun p => decide (b ≤ p.last)))

def State.addsBefore (s : State) (b : Nat) : List PostedAdd := (s.bank b).fladds ++ s.lowerAdds b
def State.latesBefore (s : State) (b : Nat) : List LateStore := (s.bank b).late ++ s.lowerLates b
def State.packetsBefore (s : State) (b : Nat) : List Packet := s.packetsOf b ++ s.lowerPackets b

/-- Late stores other than to host memory, which keeps no case of R376 but e (R380). -/
def State.storesBefore (s : State) (b : Nat) : List LateStore := (s.latesBefore b).filter (fun x => !x.host)

/-- Nothing that a release of the bank must follow is on its way: posted adds, late stores, packets (R376, case c). -/
def State.quietWay (s : State) (b : Nat) : Bool :=
  (s.addsBefore b).isEmpty && (s.storesBefore b).isEmpty && (s.packetsBefore b).isEmpty

/-- A late store or a packet to some byte of a range is on its way, which a later access of the bank to the byte follows (R371, R376 case
b). R277 leaves packets unordered with accesses to other bytes (log 26). -/
def State.wayMeets (s : State) (b pa n : Nat) : Bool :=
  (s.storesBefore b).any (fun x => overlaps x.pa x.bytes.length pa n) || (s.packetsBefore b).any (fun p => overlaps p.pa 8 pa n)

/-- The late stores of a bank that may reach the L1 next: every one that no earlier one to the same bytes stands before (R376 case b); host
memory keeps no order (R380). -/
def Bank.drainable (b : Bank) (k : Nat) : Option LateStore :=
  match b.late[k]? with
  | none => none
  | some x =>
    if x.host || (b.late.take k).all (fun y => !overlaps y.pa y.bytes.length x.pa x.bytes.length) then some x else none

/-- A late store reaches the L1, and is performed. -/
def State.drainStore (s : State) (b k : Nat) : State :=
  match (s.bank b).drainable k with
  | none => s
  | some x =>
    let s := s.setBank b { (s.bank b) with late := (s.bank b).late.eraseIdx k }
    s.performLate b x

end Sys2Proof.Machine
end

