-- ==== Sys2Proof/Machine/Ends.lean ====
section
/-! DEFINITION. How a unit leaves its clusters (R81, R407, R419): its engines and packets run to their join, its lease and session end, its
open nodes are freed, its walk record passes on, and its banks are empty. -/

namespace Sys2Proof.Machine

/-- The clusters of a unit, and the bank it runs in on each. -/
def WorkUnit.clusters (u : WorkUnit) : List Nat := (List.range u.width).map (u.base + ·)

/-- The bank of a member, given any bank of the unit. -/
def bankOf (b cl : Nat) : Nat := 2 * cl + b % 2

/-- The width a bank issues at. Delivery of a trap sets it to one for the member that runs the handler (R406). -/
def Bank.width (b : Bank) : Nat := b.issueWidth

/-- The clusters that issue together with cluster cl in bank b (R92, R146). -/
def State.groupOf (s : State) (b : Nat) : List Nat :=
  let bk := s.bank b
  match bk.unit with
  | some u => (List.range bk.issueWidth).map (fun i => u.base + u.member / bk.issueWidth * bk.issueWidth + i)
  | none => [b / 2]

/-- The bank of the last member that issues together with a bank. -/
def State.lastMate (s : State) (b : Nat) : Nat := bankOf b ((s.groupOf b).getLastD (b / 2))

/-! ## Lease and session (R212, R217, R218) -/

/-- The bank's unit holds the Vat. -/
def State.holdsVat (s : State) (b : Nat) : Bool :=
  match (s.bank b).unit, (s.core (b / 8)).vat.lease with
  | some u, some l => l.cluster == u.base && l.bank == b % 2
  | _, _ => false

/-- End the lease of a bank's unit (R212). -/
def State.endLease (s : State) (b : Nat) : State :=
  if s.holdsVat b then
    let c := s.core (b / 8)
    s.setCore (b / 8) { c with vat := { c.vat with lease := none } }
  else s

/-! ## Running to the join (R81, R259) -/

/-- The status word a CPYR read at issue. -/
def QEntry.status (e : QEntry) : BitVec 64 := SMap.get 0 e.vals 8

/-- What tells a copy from another: its kind and every field but its token and status registers, which a CPYR of it repeats (R287). -/
def QEntry.copyFields (e : QEntry) : List Nat :=
  let kind := match wopOf e.tmpl with | 0x04 => 0 | 0x05 => 1 | 0xC3 => 2 | 0xC4 => 3 | _ => bits (fieldOf e.tmpl 0) 4 2
  [kind, (fieldOf e.tmpl 1).toNat / 64] ++ [2, 3, 4, 5, 6].map (fun k => (fieldOf e.tmpl k).toNat) ++ [bits (fieldOf e.tmpl 7) 0 8]

/-- The page request of the copy that a CPYR resumes (R286, R287): the newest of that progress and those fields, before all one whose token
register held the status word. -/
def State.copyAnswer (s : State) (b : Nat) (e : QEntry) : Option CopyAnswer :=
  match (s.bank b).unit with
  | some u =>
    let mine := (s.part u.part).answers.filter (fun a => a.bank == b && a.progress == bits e.status 8 24 && a.fields == e.copyFields)
    (match mine.find? (fun a => a.token == bits (fieldOf e.tmpl 7) 8 6) with
      | some a => some a
      | none => mine.head?)
  | none => none

/-- A CPYR waits for the answer to its copy's page request (R287). -/
def State.resumeWaits (s : State) (b : Nat) (e : QEntry) : Bool :=
  wopOf e.tmpl == 0x07 && e.status.extractLsb' 0 8 == cPAGE
    && (match s.copyAnswer b e with | some a => !a.answered | none => false)

/-- An operation of a queue can start, for a Vat command once its request is granted: its session requests the Vat until then (R211). -/
def State.startable (s : State) (cl : Nat) (q : QueueName) : Bool :=
  match s.ready cl q with
  | none => false
  | some e => !s.resumeWaits (s.activeBank cl) e

/-- A SEAL of the bank waits, for the engines, at fabric ingress, or for room in a Crock. -/
def Bank.inSeal (b : Bank) : Bool := match b.waits with | some { instr := .seal _ _, .. } => true | _ => false

/-- A SEAL of the bank's issue group has issued and waits for the engines: it completes before its unit is discarded (R306, R412). A bundle
has issued once no other word of it waits (R92). -/
def State.sealing (s : State) (b : Nat) : Bool :=
  let g := (s.groupOf b).map (fun cl => s.bank (bankOf b cl))
  g.any (·.inSeal) && g.all (fun x => x.inSeal || x.waits.isNone)

/-- Nothing of a cluster runs, and nothing left in its queues can start. -/
def State.atRest (s : State) (cl : Nat) : Bool :=
  let c := s.cluster cl
  let b := s.activeBank cl
  c.outstanding.isEmpty && (s.bank b).fladds.isEmpty && (s.bank b).late.isEmpty && !s.sealing b
    && (c.qL ++ c.qC ++ c.qS).all (·.queued)
    && !(s.startable cl .L || s.startable cl .C || s.startable cl .S)

/-- Every member's engines have finished and every write of theirs is performed (R110, R419). -/
def State.unitQuiet (s : State) (u : WorkUnit) (b : Nat) : Bool :=
  u.clusters.all (fun cl => (s.cluster cl).idle && (s.cluster cl).outstanding.isEmpty && (s.bank (bankOf b cl)).fladds.isEmpty
    && (s.bank (bankOf b cl)).late.isEmpty)

/-- Every member of the unit in bank b whose bank is active is at rest: what is left in its queues can never start. A bank set aside has
drained before (R259). -/
def State.joined (s : State) (b : Nat) (u : WorkUnit) : Bool :=
  u.clusters.all (fun cl => s.activeBank cl != bankOf b cl || s.atRest cl)

/-! ## Leaving -/

/-- A standing walk record passes to the partition's table of 16 entries; the oldest is dropped when it is full (R395). The spec does not
say which of the four Skimmers holds a partition's table: there is one for all dies (log 57). -/
def State.keepWalk (s : State) (p : Nat) (w : Option WalkRecord) : State :=
  match w with
  | some r =>
    let x := s.part p
    let t := x.walks ++ [r]
    s.setPart p { x with walks := t.drop (t.length - 16) }
  | none => s

/-- The tags of a cluster that packets with faults still hold are free. -/
def State.clearTags (s : State) (cl : Nat) : State := s.setCluster cl { (s.cluster cl) with packets := [] }

/-- One member leaves its cluster: the operations that never started are dropped, and the bank's state is abandoned. The queues and
tags serve the active bank, so a bank set aside has only its set-aside operations to lose (R125, R260). -/
def State.vacate (s : State) (b : Nat) : State :=
  let s := if s.activeBank (b / 2) = b then (s.clearQueues (b / 2)).clearTags (b / 2) else s
  (s.undoOpen b).setBank b {}

/-- Every member of a unit leaves (R81). -/
def State.removeUnit (s : State) (b : Nat) : State :=
  match (s.bank b).unit with
  | none => s
  | some u =>
    let s := s.endLease b
    let s := u.clusters.foldl (fun (s : State) cl => s.keepWalk u.part (s.bank (bankOf b cl)).walk) s
    let s := u.clusters.foldl (fun (s : State) cl => s.vacate (bankOf b cl)) s
    let x := s.part u.part
    let s := s.setPart u.part { x with answers := x.answers.filter (fun a => !u.clusters.any (fun cl => bankOf b cl == a.bank)) }
    s.dropOpened u.id

/-- A pre-emption's discard: the record is re-queued, and the victim counts in sched_preempts (R80, R81), a unit that MOVE_ISLAND pre-empts
as well (R63, log 55). -/
def State.discardVictim (s : State) (b : Nat) : State :=
  match (s.bank b).unit with
  | none => s
  | some u =>
    let s := (s.removeUnit b).requeue u false
    let x := s.part u.part
    s.setPart u.part { x with schedPreempts := x.schedPreempts + 1 }

/-- A discard for cancellation: the unit is not re-queued and retires (R85, R418). -/
def State.discardCancelled (s : State) (b : Nat) : State :=
  match (s.bank b).unit with
  | none => s
  | some u => (s.removeUnit b).retireRecord u.part u.crec (b / 8)

/-- A cancel reaches running units: those of a cancelled entry that are not committed are to be discarded (R85). -/
def State.reachUnits (s : State) : SMap Bank → SMap Bank
  | [] => []
  | (k, b) :: m => (k, match b.unit with
      | some u => if !u.committed && s.recordCancelled u.part u.crec then { b with unit := some { u with cancelled := true } } else b
      | none => b) :: s.reachUnits m

def State.spreadCancel (s : State) : State :=
  let s := s.banks.foldl (fun (s : State) x => match x.2.unit with | some u => s.seeRecord u.part u.crec | none => s) s
  { s with banks := s.reachUnits s.banks }

end Sys2Proof.Machine
end

