-- ==== Sys2Proof/Machine/Traps.lean ====
section
/-! DEFINITION. Taking a trap (R401-R411) as one shared operation: page faults, delivery to the handler, ending a unit by fault, and
the return from a handler. -/

namespace Sys2Proof.Machine

/-- Size of an issue unit in bytes (R142). -/
def Bank.unitBytes (b : Bank) : BitVec 64 := BitVec.ofNat 64 (4 * b.width)
def Bank.memberNo (b : Bank) : Nat := match b.unit with | some u => u.member | none => 0

/-- cause of R402. The member of a bundle's faulting word stands here alone: R94 would have trap_info name it, where R401 and R402 give trap_info
nothing but the fault's datum (log 20). -/
def causeWord (t : Trap) (prev : BitVec 2) : BitVec 64 :=
  BitVec.ofNat 64 (t.seq.toNat * 2 ^ 32 + t.tcode.toNat * 2 ^ 20 + prev.toNat * 2 ^ 18
    + (match t.ptag with | some p => p.toNat * 2 ^ 15 + 2 ^ 14 | none => 0) + t.member.toNat * 2 ^ 12
    + t.queue.toNat * 2 ^ 9 + (if t.deferred then 2 ^ 8 else 0) + t.code.toNat)

/-- trap_pc of R402. A deferred trap taken where ERET has resumed and nothing has been fetched keeps the address as ERET had it. -/
def Bank.trapAddress (b : Bank) (t : Trap) : BitVec 64 :=
  if t.deferred then b.pc ||| b.skew.setWidth 64
  else if t.code = cTRAP then b.pc + b.unitBytes
  else b.pc

/-- The host sequence number of a unit's job, and where a bank stands, as a record holds them (R409). -/
def State.jobSeq (s : State) (u : WorkUnit) : BitVec 32 := match s.job u.part u.crec.job with | some j => j.seq | none => 0
def State.whereOf (s : State) (b : Nat) : Nat :=
  b / 2 % 4 + 4 * (s.bank b).memberNo + 16 * (b % 2) + 32 * (s.bank b).level.toNat

/-- The fault record of a bank (R409). -/
def State.bankRecord (s : State) (b : Nat) (code : Code) (flags : Nat) (wseq : BitVec 32) (pc addr info : BitVec 64)
    (time : BitVec 64) (req : Nat) : State :=
  match (s.bank b).unit with
  | none => s
  | some u => s.faultRecord u.part (recordBytes code flags u.crec.job (s.whereOf b) (s.jobSeq u) (b / 8) wseq pc addr info
      u.crec.launch u.crec.graph u.crec.phase time req)

/-! ## Page requests (R411) -/

/-- The partition's next request id; ids skip 0. -/
def Partition.takeId (x : Partition) : Partition × Nat :=
  let id := if x.nextReq % 2 ^ 32 = 0 then 1 else x.nextReq % 2 ^ 32
  ({ x with nextReq := id + 1 }, id)

/-- The device writes a page request of a bank, and it is outstanding. -/
def State.pageRequest (s : State) (b : Nat) (va : BitVec 64) (copy : Bool) (walk : Nat := 0) : State × Nat :=
  match (s.bank b).unit with
  | none => (s, 0)
  | some u =>
    let (x, id) := (s.part u.part).takeId
    let q : PageRequest := { id := id, job := u.crec.job, bank := b, va := va, time := s.now, copy := copy, walk := walk, seq := s.jobSeq u,
                             wher := s.whereOf b, pc := (s.bank b).pc, launch := u.crec.launch, graph := u.crec.graph,
                             phase := u.crec.phase }
    let s := s.setPart u.part { x with requests := x.requests ++ [q] }
    (s.bankRecord b cPAGE 0x10 0 (s.bank b).pc va 0 s.now id, id)

/-- A PAGE raised through a handle makes its bank wait for the answer (R259, R404). -/
def State.pageFault (s : State) (b : Nat) (h : Nat) (va : BitVec 64) : State :=
  let (s, id) := s.pageRequest b va false
  let bk := s.bank b
  s.setBank b { bk with waits := none, page := some { ids := [id], since := s.now, handle := h, pc := bk.pc, level := bk.level } }

/-! ## Delivery and ending (R406, R407) -/

/-- The other members of the issue group hold, or go on; none of them waits at a JOIN any more, which is executed again (R405). -/
def holdMembers (u : Nat) (except : Nat) (group : List Nat) (v : Bool) : SMap Bank → SMap Bank
  | [] => []
  | (k, b) :: m => (k, match b.unit with
      | some x => if x.id = u ∧ k ≠ except ∧ group.contains (k / 2) then { b with held := v, joined := none } else b
      | none => b) :: holdMembers u except group v m

/-- A FAIL that the instruction at pc has still to raise stands while a handler runs first; its own PAGE ends it (R411, log 20). -/
def Bank.keepFail (b : Bank) (t : Trap) : Option PageWait :=
  match b.page with
  | some w =>
    if w.resumed && w.failed && !(t.code == cPAGE && !t.deferred && w.pc == b.pc && w.level == b.level) then some w else none
  | none => none

/-- Delivery to the partition's handler (R406): the member issues alone, and the bank holds what its group was. A timer that is pending already waits for the return (R405). -/
def State.deliver (s : State) (b : Nat) (u : WorkUnit) (t : Trap) : State :=
  let bk := s.bank b
  let t := { t with member := BitVec.ofNat 2 u.member }
  let cause := causeWord t bk.level
  let pc := bk.trapAddress t
  let h := (s.part u.part).handler
  let s := if bit h 1 then
      s.bankRecord b t.code ((if t.deferred then 1 else 0) + 2) t.seq pc t.info cause t.time 0 else s
  let s := { s with banks := holdMembers u.id b (s.groupOf b) true s.banks }
  let keep := bk.keepFail t
  let s := s.undoOpen b
  let bk := s.bank b
  s.setBank b { bk with cause := cause, trapPc := pc, trapInfo := t.info, level := 1, pc := h &&& ~~~(3#64), skew := 0,
                        trapGroup := some (bk.issueWidth, bk.forked), issueWidth := 1,
                        waits := none, watch := none, page := keep, joined := none,
                        traps := bk.traps.map (fun x => { x with late := true }) }

/-- A unit ends by fault (R407). -/
def State.endByFault (s : State) (b : Nat) (u : WorkUnit) (t : Trap) : State :=
  let bk := s.bank b
  let t := { t with member := BitVec.ofNat 2 u.member }
  let flags := (if t.deferred then 1 else 0) + 4 + (if bk.level = 0 then 0 else 8)
  let pc := bk.trapAddress t
  let cause := causeWord t bk.level
  let seq := s.jobSeq u
  let wher := s.whereOf b
  let s := s.removeUnit b
  let s := s.faultRecord u.part (recordBytes t.code flags u.crec.job wher seq (b / 8) t.seq pc t.info cause u.crec.launch
    u.crec.graph u.crec.phase t.time 0)
  match s.job u.part u.crec.job with
  | none => s
  | some j =>
    let s := s.markEntry u.part j .launch u.crec.launch 4
    let s := s.retireRecord u.part u.crec (b / 8)
    if j.cancelOnFault then (s.cancelJob u.part u.crec.job).spreadCancel else s

/-- The ending of a unit whose operations have run to their join. -/
def State.endUnit (s : State) (b : Nat) (u : WorkUnit) (l : Leaving) : State :=
  match l with
  | .fault k t =>
    (match (s.bank k).unit with
      | some v => s.endByFault k v t
      | none => s)
  | .done => (s.removeUnit b).retireRecord u.part u.crec (b / 8)
  | .victim => s.discardVictim b
  | .yielded => (s.removeUnit b).requeue u true
  | .cancelled => s.discardCancelled b

/-- Every member of a unit stops issuing, and waits no longer, but for a SEAL that has issued (R306, R412). -/
def markLeaving (u : Nat) (l : Leaving) (sealing : Nat → Bool) : SMap Bank → SMap Bank
  | [] => []
  | (k, b) :: m => (k, match b.unit with
      | some x => if x.id = u then { b with ending := some l, waits := if sealing k then b.waits else none, joined := none } else b
      | none => b) :: markLeaving u l sealing m

/-- A unit can end: its operations have run to their join, or for a DONE its engine fence has ended (R419) and the Crocks have room for the
entries it updates (R387). -/
def State.endsNow (s : State) (b : Nat) (u : WorkUnit) (l : Leaving) : Bool :=
  if l = .done then s.unitQuiet u b && !s.retireStalls u.part u.crec else s.joined b u

/-- The unit in bank b is to end (R81, R407, R419): at once if it can, else when it can. A unit that is already ending ends in the way first
taken, but a DONE still at its fence gives way to a discard. -/
def State.leave (s : State) (b : Nat) (l : Leaving) : State :=
  let bk := s.bank b
  match bk.unit with
  | none => s
  | some u =>
    let l := match bk.ending with | none => l | some .done => l | some x => x
    if s.endsNow b u l then s.endUnit b u l
    else if bk.ending = some l then s
    else { s with banks := markLeaving u.id l s.sealing s.banks }

/-- A DONE whose bundle's operations still ran raises what they fault first, and is executed again after it (R405, R419). -/
def clearDone (u : Nat) : SMap Bank → SMap Bank
  | [] => []
  | (k, b) :: m => (k, match b.unit with
      | some x => if x.id = u ∧ b.ending = some .done then { b with ending := none } else b
      | none => b) :: clearDone u m

/-- Take a fault of bank b: the first case of R404 that applies. A victim or a cancelled unit is discarded there, at a boundary, so that
nothing of it issues after a fault was dropped (R412). A unit that is both is discarded as a victim: its record is queued again and removed at
its next pop (R85 and R404 do not say; log 19). Without a unit there is nothing to report to. -/
def State.takeTrap (s : State) (b : Nat) (t : Trap) : State :=
  let bk := s.bank b
  let t := if t.deferred then t else { t with time := s.now }
  match bk.unit with
  | none => s
  | some u =>
    let failed := match bk.page with
      | some w => w.resumed && w.failed && w.pc == bk.pc && w.level == bk.level
      | none => false
    match t.page, decide (t.code = cPAGE) && !failed with
    | some h, true => s.pageFault b h t.info
    | _, _ =>
      if u.victim then s.leave b .victim
      else if u.cancelled then s.leave b .cancelled
      else if bk.ending.isSome && bk.ending != some .done then s.setBank b { bk with waits := none }
      else
        let s := { s with banks := clearDone u.id s.banks }
        if bk.level = 0 ∧ bit (s.part u.part).handler 0 then s.deliver b u t else s.leave b (.fault b t)

/-! ## Pending traps (R405) -/

/-- The first trap of a list in ascending seq. -/
def firstWide : List Trap → Option Trap
  | [] => none
  | t :: ts => if t.wide then
      match firstWide ts with
      | some x => some (if seqBefore x.seq t.seq then x else t)
      | none => some t
    else firstWide ts

def Trap.isTimer (t : Trap) : Bool := t.code == cCOMMIT_BUDGET || t.code == cWATCHDOG

/-- The pending trap a bank takes next: while a handler runs only timers that became pending there are taken. -/
def Bank.nextTrap (b : Bank) : Option Trap :=
  if b.trapGroup.isNone then
    match firstWide b.traps with
    | some t => some t
    | none =>
      match b.traps.find? (fun t => !t.isTimer) with
      | some t => some t
      | none => b.traps.find? (·.isTimer)
  else b.traps.find? (fun t => t.isTimer && !t.late)

def eraseTrap (t : Trap) : List Trap → List Trap
  | [] => []
  | x :: xs => if x = t then xs else x :: eraseTrap t xs

/-- Take the next pending trap of a bank; the tag of a packet's trap is free then (R405). -/
def State.takePending (s : State) (b : Nat) : State :=
  match (s.bank b).nextTrap with
  | none => s
  | some t =>
    let s := s.setBank b { (s.bank b) with traps := eraseTrap t (s.bank b).traps }
    let s := match t.ptag with
      | some k =>
        let c := s.cluster (b / 2)
        let held := match SMap.get none c.packets k.toNat with | some p => p.failed && p.bank == b | none => false
        if held then s.setCluster (b / 2) { c with packets := SMap.set none c.packets k.toNat none } else s
      | none => s
    s.takeTrap b t

/-! ## The return (R408) -/

/-- A queue of a bank stays halted: a trap of one of its operations has not been taken (R107, R405). -/
def Bank.halted (b : Bank) (queue : BitVec 2) : Bool := b.traps.any (fun t => t.wide && t.queue == queue)

/-- The return from a handler: the level of before the trap, the queues' halts released but for traps not yet taken, and the group
that took the trap issues together again from trap_pc, whose bits [1:0] the first fetch finds when they are not 0 (R92). With cause.flush
the operations that have not started are removed and the token counters are 0. -/
def State.returnFrom (s : State) (b : Nat) : State :=
  let bk := s.bank b
  let cl := b / 2
  let s := if bit bk.cause 11 then
      let c := s.cluster cl
      let keep := fun (es : List QEntry) => es.filter (fun e => !e.queued)
      let gone := (c.qL ++ c.qC ++ c.qS).filter (·.queued)
      let s := s.setCluster cl { c with qL := keep c.qL, qC := keep c.qC, qS := keep c.qS }
      s.setBank b { bk with tokLC := 0, tokCS := 0, tokCL := 0, tokSC := 0,
                            pend := gone.foldl (fun p e => e.dests.foldl (fun p n => eraseOne n p) p) bk.pend }
    else s
  let bk := s.bank b
  let s := s.setCluster cl { (s.cluster cl) with haltL := bk.halted 0, haltC := bk.halted 1, haltS := bk.halted 2 }
  let prev := bk.cause.extractLsb' 18 2
  let pc := bk.trapPc &&& ~~~(3#64)
  let group := bk.trapGroup.getD (bk.issueWidth, bk.forked)
  let s := s.setBank b { bk with level := prev, cause := 0, waits := none, trapGroup := none, issueWidth := group.1, forked := group.2, progress := s.now }
  match bk.unit with
  | some u =>
    let g := s.groupOf b
    let s := { s with banks := holdMembers u.id b g false s.banks }
    g.foldl (fun (s : State) k => s.setBank (bankOf b k) { (s.bank (bankOf b k)) with pc := pc, skew := bk.trapPc.extractLsb' 0 2 }) s
  | none => s

end Sys2Proof.Machine
end

