-- ==== Sys2Proof/Machine/Ops.lean ====
section
/-! DEFINITION. What the instruction meanings are built from: the registers of the issuing bank, how an instruction ends (R113,
R126, R142), and access through a handle (R237). Taking an exception is `State.takeTrap`, the return `State.returnFrom`. -/

namespace Sys2Proof.Machine

/-! ## The issuing bank and its registers (R114) -/

/-- The bank that issues: the active bank of the focused cluster (R125). -/
def State.ib (s : State) : Nat := s.activeBank s.focus
def State.cur (s : State) : Bank := s.bank s.ib
def State.setCur (s : State) (b : Bank) : State := s.setBank s.ib b
/-- The core of the issuing cluster. -/
def State.coreNo (s : State) : Nat := s.focus / 4
def State.curCore (s : State) : Core := s.core s.coreNo
def State.setCurCore (s : State) (c : Core) : State := s.setCore s.coreNo c
/-- The partition of the issuing unit. -/
def State.partNo (s : State) : Nat := match s.cur.unit with | some u => u.part | none => 0

/-- s[n]: reading s0 gives 0 (R114). -/
def Bank.reg (b : Bank) (n : BitVec 6) : BitVec 64 := if n = 0 then 0 else SMap.get 0 b.s n.toNat
/-- Writes to s0 are discarded (R114). -/
def Bank.setReg (b : Bank) (n : BitVec 6) (v : BitVec 64) : Bank := if n = 0 then b else { b with s := SMap.set 0 b.s n.toNat v }
def State.reg (s : State) (n : BitVec 6) : BitVec 64 := s.cur.reg n
def State.setReg (s : State) (n : BitVec 6) (v : BitVec 64) : State := s.setCur (s.cur.setReg n v)

/-- v[n] as its 64 lanes, p[n] with p0 all ones (R9, R177). -/
def Bank.getV (b : Bank) (n : Nat) : List (BitVec 32) := (List.range 64).map (fun l => SMap.get 0 b.v (64 * n + l))
def Bank.getP (b : Bank) (n : Nat) : BitVec 64 := if n = 0 then BitVec.allOnes 64 else SMap.get 0 b.p n
def Bank.getW (b : Bank) (n : Nat) : BitVec 64 := SMap.get 0 b.w n
def Bank.getN (b : Bank) (n : Nat) : NodeReg := SMap.get .empty b.n n
def Bank.setN (b : Bank) (n : Nat) (x : NodeReg) : Bank := { b with n := SMap.set .empty b.n n x }
/-- Template slots; a slot not listed holds the reset template (R48). -/
def Bank.slot (b : Bank) (n : Nat) : BitVec 128 := SMap.get resetTemplate b.tmpl n

/-- h0 (R232): VALID, va 0, limit 5,767,168, write intent. -/
def windowHandle : Handle := { state := .valid, size := spadBytes, limit := spadBytes, perm := 3, wi := true }
def Bank.handle (b : Bank) (n : Nat) : Handle := if n = 0 then windowHandle else SMap.get {} b.h n
def Bank.setHandle (b : Bank) (n : Nat) (h : Handle) : Bank := if n = 0 then b else { b with h := SMap.set {} b.h n h }

/-- A register is awaited as a pending completion token (R109, R126). -/
def Bank.isPending (b : Bank) (n : BitVec 6) : Bool := n != 0 && b.pend.contains n.toNat
def Bank.markPending (b : Bank) (n : BitVec 6) : Bank := if n = 0 then b else { b with pend := b.pend ++ [n.toNat] }

/-! ## How an instruction ends -/

/-- The ways an instruction ends: complete, with a taken transfer, with its own effect on where the group goes on, waiting at the
boundary (in itself, or held off by something earlier or a token bucket), or with a precise fault. -/
inductive Res where
  | ok (s : State)
  | jump (s : State) (target : BitVec 64)
  | keep (s : State)
  | wait (s : State)
  | hold (s : State) (why : WaitFor)
  | trap (s : State) (t : Trap)
  deriving DecidableEq, Repr

/-- The end test of R142 for one level. The bank, and whether the test has stopped with a transfer to the start. -/
def Bank.endTest (b : Bank) (n : Nat) (x : BitVec 64) : Bank × Bool :=
  let l := SMap.get {} b.loops n
  if l.armed && l.last == x then
    let c := SMap.get 0 b.lc n - 1
    let b := { b with lc := SMap.set 0 b.lc n c }
    if c ≠ 0 then ({ b with pc := l.start }, true)
    else ({ b with loops := SMap.set {} b.loops n { l with armed := false } }, false)
  else (b, false)

/-- The end test of R142 after the issue unit at x, level 1 first. -/
def Bank.loopEnd (b : Bank) (x : BitVec 64) : Bank :=
  match b.endTest 1 x with
  | (b, true) => b
  | (b, false) => (b.endTest 0 x).1

/-- An instruction that completes at the level of a FAIL ends it: the instruction that had faulted is not the one executed (R411, log 20). -/
def Bank.donePage (b : Bank) : Option PageWait :=
  match b.page with
  | some w => if w.level = b.level then none else some w
  | none => none

/-- The issue unit at pc is done without a taken transfer: pc moves on, the end test runs, and nothing waits. In a gang the test is
the leader's, with the loop state of its bank (log 17). -/
def Bank.advance (b : Bank) : Bank :=
  let c := { b with pc := b.pc + b.unitBytes, waits := none, watch := none, page := b.donePage }
  if b.memberNo % b.width ≠ 0 then c else c.loopEnd b.pc

def Bank.goTo (b : Bank) (t : BitVec 64) : Bank := { b with pc := t, waits := none, watch := none, page := b.donePage }

/-- Instructions whose own wait is no stall (R416). -/
def waitIsNoStall (i : Instr) : Bool :=
  match i with
  | .mwait _ _ => true
  | .flwait _ _ _ _ _ => true
  | .flwaitCoreFlag _ _ => true
  | .loopm _ _ _ _ => true
  | .rwfree _ _ _ => true
  | .rpost _ _ _ => true
  | .rwfill _ _ _ => true
  | .rfree _ _ _ => true
  | .join _ => true
  | _ => false

/-- A wait that is no stall (R416): for a token bucket, or an instruction's own wait that R416 names. -/
def Waits.noStall (w : Waits) : Bool := w.why == .bucket || (w.why == .itself && waitIsNoStall w.instr)

/-- Note that an instruction waits, for what, and since when. A stall after a wait that was none counts from now (R416). -/
def Bank.noteWait (b : Bank) (i : Instr) (why : WaitFor) (now : BitVec 64) (cycle : Nat) : Bank :=
  match b.waits with
  | some w =>
    if w.instr = i ∧ w.why = why then b
    else { b with waits := some { instr := i, since := now, why := why, cycle := cycle }, progress := if w.noStall then now else b.progress }
  | none => { b with waits := some { instr := i, since := now, why := why, cycle := cycle } }

/-- The bank's instruction waits; in a gang that is noted for the bundle (R92). -/
def State.waitAt (s : State) (i : Instr) (s' : State) (why : WaitFor) : State :=
  let s' := s'.setBank s.ib ((s'.bank s.ib).noteWait i why s.now s.fabric)
  if s.cur.width = 1 then s' else { s' with note := .stalled }

/-- The end of an instruction of the issuing bank. In a gang a stall or a fault is noted for the bundle (R92, R94). -/
def State.finish (s : State) (i : Instr) (r : Res) : Host.Outcome State Fault Refusal :=
  match r with
  | .ok s' => .next (s'.setBank s.ib { (s'.bank s.ib).advance with progress := s'.now })
  | .jump s' t => .next (s'.setBank s.ib { ((s'.bank s.ib).goTo t) with progress := s'.now })
  | .keep s' => .next s'
  | .wait s' => .next (s.waitAt i s' .itself)
  | .hold s' why => .next (s.waitAt i s' why)
  | .trap s' t =>
    .next (if s.cur.width = 1 then s'.takeTrap s.ib t else { s' with note := .raised t })

/-- The word of an instruction, as trap_info holds it (R401). -/
def wordInfo (i : Instr) : BitVec 64 := match encode i with | some w => zx w | none => 0

/-- Stall while a named register is pending (R109, R126). -/
def State.withRegs (s : State) (rs : List (BitVec 6)) (k : Res) : Res := if rs.any s.cur.isPending then .hold s .earlier else k

/-- s[d] := v. -/
def State.result (s : State) (d : BitVec 6) (v : BitVec 64) : Res := .ok (s.setReg d v)

/-- An instruction that acts for the whole unit: it must issue at the unit's width (R149). -/
def State.wholeUnit (s : State) (i : Instr) (k : WorkUnit → Res) : Res :=
  match s.cur.unit with
  | none => .ok s
  | some u => if s.cur.width ≠ u.width ∨ u.member ≠ 0 then .trap s (precise cGANG (wordInfo i)) else k u

/-- A privileged instruction needs level 1 (R127). -/
def State.needLevel (s : State) (i : Instr) (l : BitVec 2) (k : Res) : Res :=
  if s.cur.level < l then .trap s (precise cPRIV (wordInfo i)) else k

/-! ## Access through a handle (R237) -/

/-- Where an access goes: the scratchpad at an offset, or memory at a physical address; with the virtual address reached. -/
structure Place where
  spad : Bool
  pa   : Nat
  va   : BitVec 64
  deriving DecidableEq, Repr

/-- Why an access does not go on: it waits for the walk, or it faults. -/
inductive Stop where
  | wait
  | trap (t : Trap)
  deriving DecidableEq, Repr

/-- The datum of an access: the virtual address reached; through h0 that is the offset. -/
def Handle.reach (h : Handle) (o : BitVec 64) : BitVec 64 := h.va + o

/-- The checks of R237 on the handle, the alignment, the bounds and the write intent. -/
def State.access (s : State) (h : BitVec 4) (o : BitVec 64) (n : Nat) (write : Bool) : Except Stop Place :=
  let x := s.cur.handle h.toNat
  let va := x.reach o
  match x.state with
  | .translating => .error .wait
  | .pending => .error .wait
  | .invalid => .error (.trap (precise cHANDLE_INVALID va))
  | .fault c => .error (.trap { precise c va with page := if c = cPAGE then some h.toNat else none })
  | .valid =>
    if va.toNat % n ≠ 0 then .error (.trap (precise cALIGN va))
    else if x.limit < o.toNat + n then .error (.trap (precise cHANDLE_BOUNDS va))
    else if write && !x.wi then .error (.trap (precise cPERM va))
    else .ok { spad := decide (h = 0), pa := if h = 0 then o.toNat else x.frame + x.va.toNat % x.size + o.toNat, va := va }

/-- A posted FLADD that goes before a later access of the bank: one to the same word (R376 case b, R386), or an acquire (case d). -/
def PostedAdd.before (f : PostedAdd) (a : Place) (n : Nat) : Bool :=
  bit f.order 0 || (!a.spad && decide (a.pa / 8 ≤ f.pa / 8 ∧ f.pa / 8 ≤ (a.pa + n - 1) / 8))

/-- A FLADD that goes before an access of the bank has not been performed. -/
def State.addBefore (s : State) (a : Place) (n : Nat) : Bool := (s.addsBefore s.ib).any (fun f => f.before a n)

/-- Something of the bank on its way goes before the access: a FLADD, or a late store or packet to the same bytes (R371, R376 cases b and d). -/
def State.addPending (s : State) (a : Place) (n : Nat) : Bool := s.addBefore a n || (!a.spad && s.wayMeets s.ib a.pa n)

/-- An acquiring FLADD has not been performed: no later access of the bank goes before it (R376 case d). -/
def State.acquiring (s : State) : Bool := (s.addsBefore s.ib).any (fun f => bit f.order 0)

/-- Every access of the bank but its wide operations has been performed. -/
def State.wayClear (s : State) : Bool := s.quietWay s.ib

/-- A release or an enqueue comes after every access of the bank, its posted FLADDs, late stores and packets included (R74, R376 case c). -/
def State.afterAdds (s : State) (k : Res) : Res := if s.wayClear then k else .hold s .earlier

/-- Every store and posted FLADD of the bank has been performed, but for those to host memory (R380). -/
def State.storesDone (s : State) : Bool := (s.addsBefore s.ib).isEmpty && (s.storesBefore s.ib).isEmpty

/-- The fork of an engine thread comes after every store and posted FLADD of the bank (R110); packets are unordered with wide operations
(R277). -/
def State.afterStores (s : State) (k : Res) : Res := if s.storesDone then k else .hold s .earlier

/-- Continue with the place of an access, or end as it must. -/
def State.withPlace (s : State) (h : BitVec 4) (o : BitVec 64) (n : Nat) (write : Bool) (k : Place → Res) : Res :=
  match s.access h o n write with
  | .error .wait => .hold s .earlier
  | .error (.trap t) => .trap s t
  | .ok a => if s.addPending a n then .hold s .earlier else k a

/-- The same for an access through the caches, which may have to wait at fabric ingress (R65). -/
def State.withAccess (s : State) (h : BitVec 4) (o : BitVec 64) (n : Nat) (write : Bool) (k : Place → Res) : Res :=
  s.withPlace h o n write (fun a => if !a.spad && s.ingressWaits s.partNo a.pa then .hold s .bucket else k a)

/-- The same for an operation at a Crock (R386): it takes no host memory (R389) and the object checks of R362, passes ingress as 8
bytes (R65), and raises POISON at an uncorrectable error there (R413). -/
def State.withCrock (s : State) (h : BitVec 4) (o : BitVec 64) (n : Nat) (write : Bool) (k : State → Place → Res) : Res :=
  s.withPlace h o n write (fun a =>
    if a.spad then k s a
    else if memKind a.pa = MemKind.host then .trap s (precise cPERM a.va)
    else match s.objectFault (some s.coreNo) a.pa n write with
      | some c => .trap s (precise c a.va)
      | none =>
        if !s.ingressOpen s.partNo a.pa then .hold s .bucket
        else if s.crockFails a.pa then .trap (s.clearCrock a.pa) (precise cPOISON a.va)
        else k (s.charge s.partNo a.pa 8) a)

/-- Read n bytes at a place: the object checks of a read (R362), then poison (R271) or an uncorrectable codeword (R247). -/
def State.readHome (s : State) (a : Place) (n : Nat) (k : State → List Byte → Res) : Res :=
  if a.spad then
    match s.curCore.spRead a.pa n with
    | (c, none) => .trap (s.setCurCore c) (precise cPOISON a.va)
    | (c, some bs) => k (s.setCurCore c) bs
  else match s.objectFault (some s.coreNo) a.pa n false with
    | some c => .trap s (precise c a.va)
    | none =>
      match s.fillFault a.pa n with
      | (s, some c) => .trap s (precise c a.va)
      | (s, none) => k s (s.bytes a.pa n)

/-- The checks of a write at a place (R35, R362, R271), then the continuation, which makes the write. -/
def State.writeHome (s : State) (a : Place) (n : Nat) (k : State → Res) : Res :=
  if a.spad then k s
  else match s.objectFault (some s.coreNo) a.pa n true with
    | some c => .trap s (precise c a.va)
    | none =>
      match s.writeFault a.pa n with
      | (s, some c) => .trap s (precise c a.va)
      | (s, none) => k s

/-- An access through the caches is charged when it crosses fabric ingress (R65). -/
def State.chargeAt (s : State) (a : Place) (n : Nat) : State := if a.spad then s else s.request s.partNo a.pa n
def State.readAt (s : State) (a : Place) (n : Nat) (k : State → List Byte → Res) : Res := (s.chargeAt a n).readHome a n k
def State.writeCheck (s : State) (a : Place) (n : Nat) (k : State → Res) : Res := (s.chargeAt a n).writeHome a n k

/-- Write bytes at a place; the tags of the words touched are cleared (R35). -/
def State.writeAt (s : State) (a : Place) (bs : List Byte) : State :=
  if a.spad then s.spStore s.coreNo (cellsAt a.pa bs) else s.store (cellsAt a.pa bs)

/-- Read the tag of the 8-byte word at a place, which has been read: the code over a scratchpad's tags may find it uncorrectable (R246, R413). -/
def State.withTag (s : State) (a : Place) (k : State → Bool → Res) : Res :=
  if a.spad then
    match s.curCore.readTag a.pa with
    | (c, none) => .trap (s.setCurCore c) (precise cPOISON a.va)
    | (c, some t) => k (s.setCurCore c) t
  else k s (s.tagAt a.pa)

/-- off14 of form M, scaled (R97). -/
def scaled (o : BitVec 14) (n : Nat) : BitVec 64 := BitVec.ofNat 64 (o.toNat * n)

/-- The value of n bytes, sign- or zero-extended (R239). -/
def extended (n : Nat) (signed : Bool) (bs : List Byte) : BitVec 64 :=
  if signed then bits64 (sextNat (ofBytes bs) (8 * n)) else BitVec.ofNat 64 (ofBytes bs)

/-- A synchronising access of the issuing core to memory: not performed when the mode traps a mismatch (R383-R385). The scratchpad
and host memory never mismatch. -/
def State.synchronise (s : State) (a : Place) (scope : BitVec 3) (k : State → Res) : Res :=
  if a.spad || decide (memKind a.pa = MemKind.host) then k s
  else match s.syncAccess s.partNo s.coreNo scope a.pa with
    | (s, true) => k s
    | (s, false) => .trap s (precise cSCOPE_MISMATCH a.va)

/-- Every wide operation issued by the bank has completed (R110). -/
def State.enginesIdle (s : State) : Bool := (s.cluster s.focus).idle

/-- A packet of the cluster, or a packet or FLADD that comes before the bank's accesses, has not been performed: every fence waits for it (R392). -/
def State.outgoing (s : State) : Bool :=
  !(s.cluster s.focus).outstanding.isEmpty || !(s.lowerPackets s.ib).isEmpty || !(s.addsBefore s.ib).isEmpty

/-- Something that a FENCE full at system scope waits for is on its way, stores to host memory included (R380, R392). -/
def State.flushing (s : State) : Bool := s.outgoing || !(s.latesBefore s.ib).isEmpty

/-- LDACQ and STREL at host memory go with a FENCE full at system scope (R391), which has something to wait for. -/
def State.fencedHost (s : State) (a : Place) : Bool := !a.spad && decide (memKind a.pa = MemKind.host) && s.flushing

end Sys2Proof.Machine
end

