-- ==== Sys2Proof/Machine/Issue.lean ====
section
/-! DEFINITION. Fetching and issuing (R88-R94, R112, R141), and the inputs from the surroundings that the schedule may name. The
meanings come in as the argument `ex`. -/

namespace Sys2Proof.Machine

/-- The meanings of the instructions. -/
abbrev Exec := Instr → State → Host.Outcome State Fault Refusal

/-! ## Fetch (R88, R141) -/

/-- Bits [1:0] of a fetch address are zero (R88). -/
def wordAt (pc : BitVec 64) : BitVec 64 := pc &&& ~~~(3#64)

/-- Fetch one word for a bank: the line may not be private to another core (R361). -/
def State.fetchWord (s : State) (b : Nat) (pc : BitVec 64) : State × Except Trap (BitVec 32) :=
  let bk := s.bank b
  match bk.unit with
  | none => (s, .error (precise cPAGE pc))
  | some u =>
    match s.walk u.part u.asid (wordAt pc) { user := decide (bk.level = 0), exec := true } with
    | (s, .error c) => (s, .error (precise c pc))
    | (s, .ok g) =>
      if s.foreignPrivate (some (b / 8)) (g.at (wordAt pc)) 4 then (s, .error (precise cPRIVATE_ACCESS pc))
      else match (s.request u.part (g.at (wordAt pc)) 4).fillFault (g.at (wordAt pc)) 4 with
        | (s, some c) => (s, .error (precise c pc))
        | (s, none) => (s, .ok (BitVec.ofNat 32 (s.peek (g.at (wordAt pc)) 4)))

/-- The fetch of a word waits at fabric ingress (R65). -/
def State.fetchWaits (s : State) (b : Nat) (pc : BitVec 64) : Bool :=
  match (s.bank b).unit with
  | some u => (match (s.walk u.part u.asid (wordAt pc) { user := decide ((s.bank b).level = 0), exec := true }).2 with
    | .ok g => s.ingressWaits u.part (g.at (wordAt pc))
    | .error _ => false)
  | none => false

/-- The bank waits at a token bucket, which is no stall (R416). -/
def State.bucketHolds (s : State) (b : Nat) : State := s.setBank b { (s.bank b) with progress := s.now }

/-- A reserved word raises ILLEGAL with the word as its datum (R112). -/
def decodeWord (w : BitVec 32) : Except Trap Instr :=
  match decode w with
  | .ok i => .ok i
  | .error _ => .error (precise cILLEGAL (zx w))

/-- Major opcodes of the control-flow instructions (R93, R146). -/
def isControl (w : BitVec 32) : Bool :=
  let op := bits w 24 8
  (0x40 ≤ op && op ≤ 0x4A) || op == 0x98 || op == 0x99 || op == 0x9A || op == 0xB0 || op == 0xBE || op == 0xBF

/-- DONE and YIELD in word 0 end the unit, so they act once the other words have. -/
def endsUnit (i : Instr) : Bool := match i with | .unitDone => true | .yield => true | _ => false

/-! ## Which cluster issues next -/

def State.hasUnit (s : State) (cl : Nat) : Bool := (s.bank (s.activeBank cl)).unit.isSome

/-- The next cluster, in cyclic order, whose active bank holds a unit. -/
def State.rotate (s : State) : State :=
  let n := s.focus
  match s.banks.find? (fun (x : Nat × Bank) => x.2.unit.isSome && decide (n < x.1 / 2) && s.activeBank (x.1 / 2) == x.1) with
  | some x => { s with focus := x.1 / 2 }
  | none =>
    match s.banks.find? (fun (x : Nat × Bank) => x.2.unit.isSome && s.activeBank (x.1 / 2) == x.1) with
    | some x => { s with focus := x.1 / 2 }
    | none => s

/-- A bank that issues nothing: it waits at JOIN, or while a group-mate runs the handler, or its unit is ending; but a SEAL that has issued
completes (R306). -/
def State.parked (s : State) (k : Nat) : Bool :=
  let b := s.bank k
  b.held || b.joined.isSome || (b.ending.isSome && !s.sealing k)

/-- A member of the unit in bank b waits for a page answer, or is not in its cluster's active bank (R259, R261). -/
def State.paused (s : State) (b : Nat) : Bool :=
  match (s.bank b).unit with
  | some u => u.clusters.any (fun cl => s.activeBank cl != bankOf b cl
      || (match (s.bank (bankOf b cl)).page with | some w => !w.resumed | none => false))
  | none => false

/-- An outcome continued on its next state. -/
def onNext (o : Host.Outcome State Fault Refusal) (k : State → State) : Host.Outcome State Fault Refusal :=
  match o with
  | .next s => .next (k s)
  | .fault f => .fault f
  | .refused r => .refused r

/-- A cluster that has come to wait lets another issue. -/
def State.passOn (s : State) : State := if s.cur.waits.isSome then s.rotate else s

/-! ## One word (R92, R93) -/

/-- The single issue of a cluster: a due trap, a fetch fault, a pc that is no word's (R92, R408), a reserved word, or the instruction. -/
def State.issueOne (ex : Exec) (s : State) : Host.Outcome State Fault Refusal :=
  let b := s.ib
  let pc := s.cur.pc
  let skew := s.cur.skew
  if s.cur.nextTrap.isSome then .next (s.takePending b)
  else if s.fetchWaits b pc then .next (s.bucketHolds b)
  else match s.fetchWord b pc with
    | (s, .error t) => .next (s.takeTrap b t)
    | (s, .ok w) =>
      if pc.toNat % 4 ≠ 0 ∨ skew ≠ 0 then .next (s.takeTrap b (precise cGANG (zx w)))
      else match decodeWord w with
        | .error t => .next (s.takeTrap b t)
        | .ok i => ex i s

/-! ## Bundles (R92-R94) -/

/-- A word of a bundle with its cluster: the instruction, or the fault of its fetch. -/
abbrev BundleWord := Nat × Except Trap Instr

/-- What a member's word has come to: its cluster, its note, and what it waits for. -/
abbrev MemberNote := Nat × Note × Option Waits

/-- Fetch and check the words of a bundle at pc, which must be a multiple of 4w (`skew`: the bits [1:0] that ERET found there). -/
def State.fetchBundle (s : State) (pc : BitVec 64) (skew : BitVec 2) (w : Nat) : List Nat → Nat → State × List BundleWord
  | [], _ => (s, [])
  | cl :: cls, i =>
    let (s, x) := s.fetchWord (s.activeBank cl) (pc + BitVec.ofNat 64 (4 * i))
    let r : Except Trap Instr := match x with
      | .error t => .error t
      | .ok x => if pc.toNat % (4 * w) ≠ 0 ∨ skew ≠ 0 ∨ (0 < i ∧ isControl x) then .error (precise cGANG (zx x)) else decodeWord x
    let (s, rest) := s.fetchBundle pc skew w cls (i + 1)
    (s, (cl, r) :: rest)

/-- Run a member's word: the state it leaves, and what it has come to. -/
def runWord (ex : Exec) (s : State) (w : BundleWord) : Host.Outcome (State × MemberNote) Fault Refusal :=
  match w.2 with
  | .error t => .next (s, (w.1, .raised t, none))
  | .ok i =>
    match ex i { s with focus := w.1, note := .none } with
    | .next s' => .next ({ s' with note := .none }, (w.1, s'.note, (s'.bank (s'.activeBank w.1)).waits))
    | .fault f => .fault f
    | .refused r => .refused r

/-- Everything on its way of a bank is performed: its FLADDs in issue order, its late stores, its packets. -/
def State.finishWay (s : State) (b : Nat) : State :=
  let s := (s.bank b).fladds.foldl (fun (s : State) a => s.performAdd b a) s
  let l := (s.bank b).late
  let s := l.foldl (fun (s : State) x => s.performLate b x) (s.setBank b { (s.bank b) with late := [] })
  (s.cluster (b / 2)).packets.foldl (fun (s : State) x => match x.2 with
    | some p => if p.failed || p.bank != b then s else if p.write then s.packetWrite (b / 2) x.1 p else s.packetRead (b / 2) x.1 p
    | none => s) s

/-- Something of a lower member's is on its way that goes before accesses of a bank (R367). -/
def State.lowerWay (s : State) (b : Nat) : Bool := !((s.lowerAdds b).isEmpty && (s.lowerLates b).isEmpty && (s.lowerPackets b).isEmpty)

/-- A later word of a bundle. Where it waits for what an earlier word has sent on its way, which the bundle orders before it (R367), that is
performed first, since the bundle issues as one (log 26). -/
def laterWord (ex : Exec) (s : State) (w : BundleWord) : Host.Outcome (State × MemberNote) Fault Refusal :=
  match runWord ex s w with
  | .next (t, (cl, .stalled, x)) =>
    let b := s.activeBank w.1
    if !s.lowerWay b then .next (t, (cl, .stalled, x))
    else match runWord ex ((lowerBanks b).foldl (fun (s : State) k => s.finishWay k) s) w with
      | .next (_, (_, .stalled, _)) => .next (t, (cl, .stalled, x))
      | o => o
  | o => o

/-- Run words one after another, each on its member; what each has come to is collected. -/
def runWords (ex : Exec) : State → List BundleWord → List MemberNote → Host.Outcome (State × List MemberNote) Fault Refusal
  | s, [], ns => .next (s, ns)
  | s, w :: ws, ns =>
    match laterWord ex s w with
    | .next (s, n) => runWords ex s ws (ns ++ [n])
    | .fault f => .fault f
    | .refused r => .refused r

/-- The fault of the lowest-numbered member (R94). -/
def firstRaised : List MemberNote → Option (Nat × Trap)
  | [] => none
  | (cl, .raised t, _) :: ns =>
    (match firstRaised ns with
      | some x => if x.1 < cl then some x else some (cl, t)
      | none => some (cl, t))
  | _ :: ns => firstRaised ns

/-- Keep what the stalled members wait for. -/
def State.keepWaits (s : State) : List MemberNote → State
  | [] => s
  | (cl, .stalled, w) :: ns =>
    (s.setBank (s.activeBank cl) { (s.bank (s.activeBank cl)) with waits := w }).keepWaits ns
  | _ :: ns => s.keepWaits ns

/-- After a bundle the members stand at the leader's pc, unless the group has split, arrived at a JOIN or left. -/
def State.syncGroup (s : State) (leader : Nat) (u : WorkUnit) (group : List Nat) : State :=
  let bk := s.bank leader
  let same := match bk.unit with | some x => x.id == u.id | none => false
  if same && bk.issueWidth == group.length && bk.joined.isNone && !bk.forked then
    group.foldl (fun (s : State) cl => s.setBank (bankOf leader cl) { (s.bank (bankOf leader cl)) with pc := bk.pc }) s
  else s

/-- A bank that goes on where another stands. -/
def Bank.asControl (b x : Bank) : Bank :=
  { b with pc := x.pc, issueWidth := x.issueWidth, forked := x.forked, joined := x.joined, joinAt := x.joinAt }

/-- The banks of a group go on where they stand in another state. -/
def State.withControl (s from' : State) (leader : Nat) (group : List Nat) : State :=
  group.foldl (fun (s : State) cl => s.setBank (bankOf leader cl) ((s.bank (bankOf leader cl)).asControl (from'.bank (bankOf leader cl)))) s

/-- The group still stands as in an earlier state: a JOIN's deadlock (R148) has neither ended its unit nor sent one of it to the handler. -/
def State.stands (s from' : State) (u : WorkUnit) (leader : Nat) (group : List Nat) : Bool :=
  group.all (fun cl =>
    let b := s.bank (bankOf leader cl)
    b.trapGroup == (from'.bank (bankOf leader cl)).trapGroup && b.ending.isNone && (match b.unit with | some x => x.id == u.id | none => false))

/-- Run a bundle's words in member order (R367). Where word 0 sends the group on is kept aside while the other words run; DONE and YIELD act
once these have, if they can issue, and what the other words then leave running goes to its end first (R419). -/
def State.runBundle (ex : Exec) (s : State) (u : WorkUnit) (leader : Nat) (group : List Nat) :
    List BundleWord → Host.Outcome (State × List MemberNote) Fault Refusal
  | [] => .next (s, [])
  | w :: ws =>
    match runWord ex s w with
    | .fault f => .fault f
    | .refused r => .refused r
    | .next (s', n) =>
      if (match w.2 with | .ok i => endsUnit i | .error _ => false) then
        match runWords ex s ws [n] with
        | .next (t, ns) =>
          (match n.2.1 with
            | .none =>
              (match runWord ex t w with
                | .next (_, (_, .stalled, _)) => .next ({ t with banks := markLeaving u.id .done t.sealing t.banks }, ns)
                | .next (x, m) => .next (x, match m.2.1 with | .raised _ => m :: ns | _ => ns)
                | .fault f => .fault f
                | .refused r => .refused r)
            | _ => .next (t, ns))
        | .fault f => .fault f
        | .refused r => .refused r
      else if !s'.stands s u leader group then .next (s', [n])
      else
        match runWords ex (s'.withControl s leader group) ws [n] with
        | .next (t, ns) => .next (t.withControl s' leader group, ns)
        | .fault f => .fault f
        | .refused r => .refused r

/-- The state a faulting member's word leaves by itself, the other words having no effect (R94): what the spec lets stand of it, as a
commit or a walk's progress, stands. -/
def State.ofMember (ex : Exec) (s : State) (cl : Nat) (ws : List BundleWord) : State :=
  match ws.find? (fun (w : BundleWord) => w.1 == cl) with
  | some w =>
    (match runWord ex s w with
      | .next (x, (_, .raised _, _)) => { x with focus := s.focus }
      | _ => s)
  | none => s

/-- The issue of a bundle by the group of the focused cluster: it waits while any word cannot issue (R92), and then the lowest-numbered fault
is raised (R94). -/
def State.issueBundle (ex : Exec) (s : State) (u : WorkUnit) (group : List Nat) : Host.Outcome State Fault Refusal :=
  let leadCl := group.headD s.focus
  let s := { s with focus := leadCl }
  let leader := s.ib
  let pc := s.cur.pc
  if s.paused leader || group.any (fun cl => s.parked (bankOf leader cl)) then .next s.rotate
  else match group.find? (fun cl => (s.bank (bankOf leader cl)).nextTrap.isSome) with
    | some cl => .next (s.takePending (bankOf leader cl))
    | none =>
      if s.fetchWaits leader pc then .next (s.bucketHolds leader)
      else
        let (s, ws) := s.fetchBundle pc s.cur.skew group.length group 0
        match s.runBundle ex u leader group ws with
        | .fault f => .fault f
        | .refused r => .refused r
        | .next (s', ns) =>
          if ns.any (fun x => x.2.1 == Note.stalled) then .next ((s.keepWaits ns).rotate)
          else match firstRaised ns with
            | some (cl, t) => .next ((s.ofMember ex cl ws).takeTrap (bankOf leader cl) t)
            | none => .next ({ s' with focus := leadCl }.syncGroup leader u group)

/-- The issue of the focused cluster (R92, R125). -/
def State.issue (ex : Exec) (s : State) : Host.Outcome State Fault Refusal :=
  let bk := s.cur
  match bk.unit with
  | none => .next s.rotate
  | some u =>
    if bk.width = 1 then
      if s.paused s.ib || s.parked s.ib then .next s.rotate
      else onNext (s.issueOne ex) State.passOn
    else s.issueBundle ex u (s.groupOf s.ib)

/-! ## Time and inputs -/

/-- The time a step takes (log 3). -/
def State.elapse (s : State) : State :=
  { s with now := s.now + BitVec.ofNat 64 (Config.elapsedNs s.stepNo), cycles := s.cycles + Config.elapsedCycles s.stepNo,
           fabric := s.fabric + Config.elapsedFabric s.stepNo,
           stepNo := s.stepNo + 1 }

/-- An input from the surroundings: a soft error in a store, poison of host memory (R247, R270, R271, R414). -/
def State.disturb (s : State) (a : Agenda) : State :=
  match a with
  | .badSector pa =>
    if isHbm pa && s.liveAt pa then { s with badSectors := SMap.set false s.badSectors (pa / 32) true }
    else if memKind pa = .tier then s.setLine (pa / 128) { (s.lineInfo (pa / 128)) with poison := true }
    else s
  | .softSector pa => if isHbm pa && s.liveAt pa then { s with softSectors := SMap.set false s.softSectors (pa / 32) true } else s
  | .correctedError source pa island =>
    if source = 1 ∨ source = 2 ∨ source = 3 then s.ras pa source 0 (s.partOfPa pa) (some (island % 16))
    else if source = 6 then s.ras pa source 0 (s.partOfPa pa)
    else s
  | .badQueueEntry p order =>
    (match (s.part p).waiting.find? (fun (w : Waiting) => decide (w.order = order)) with
      | some w => (s.removeWaiting p w).retireRecord p w.crec agentCore
      | none => s)
  | .badMetadata line =>
    if isHbm (128 * line) && s.liveAt (128 * line) then { s with badMetaBlocks := setTags s.badMetaBlocks true (s.blockLines line) }
    else s
  | .badCrock pa => { s with badCrock := SMap.set false s.badCrock (pa / 8) true }
  | .badDirtyLine line l2 island =>
    (match memKind (128 * line) with
      | .hbm => s.dirtyLineError line l2 (island % 16)
      | .tier => s.dirtyLineError line l2 (island % 16)
      | _ => s)
  | .dropEntry line => { s with scopes := SMap.set none s.scopes line none }
  | .crockFull die p full => { s with crockFull := SMap.set false s.crockFull (die % 4 * 16 + p % 16) full }
  | .flipScratchpad core off b =>
    let c := s.core core
    s.setCore core { c with spad := SMap.set 0 c.spad (off % (24 * bankBytes)) b }
  | .flipSpadTag core w =>
    let c := s.core core
    let k := w % (spadBytes / 8)
    s.setCore core { c with tagFlips := SMap.set false c.tagFlips k (!SMap.get false c.tagFlips k) }
  | .badRvf core k =>
    let c := s.core core
    s.setCore core { c with rvfBad := SMap.set false c.rvfBad (k % 65536) true }
  | .badHostLine line => if memKind (128 * line) = .host then { s with badHost := SMap.set false s.badHost line true } else s
  | .peerEntry e => { s with peerEntries := e :: s.peerEntries.filter (fun x => x.key ≠ e.key) }
  | .event _ => s
  | .issue _ => s
  | .issueLate _ => s
  | .drainStore _ _ => s
  | .walkAhead _ => s
  | .pfRead _ _ => s
  | .doe _ _ => s
  | .mapMailbox slot pa => { s with vfMbox := SMap.set 0 s.vfMbox slot pa }
  | .vfBarRead _ _ => s
  | .vfBarWrite _ _ _ => s
  | .msixRead _ _ => s
  | .msixWrite _ _ _ => s

end Sys2Proof.Machine
end

