-- ==== Sys2Proof/Machine/LoadStore.lean ====
section
/-! DEFINITION. Scalar loads and stores, handles and translation, object headers and references, the tag table
(R232-R244, R250, R391). -/

namespace Sys2Proof.Machine

/-! ## Loads and stores (R239, R240) -/

/-- A load of n bytes at an offset. -/
def State.load (s : State) (d : BitVec 6) (h : BitVec 4) (o : BitVec 64) (n : Nat) (signed : Bool) : Res :=
  s.withAccess h o n false (fun a => s.readAt a n (fun s bs => s.result d (extended n signed bs)))

/-- How a store writes its bytes at a place, with the tag of the first word. -/
abbrev StoreBy := State → Place → List Byte → Bool → State

/-- At once. -/
def storeNow : StoreBy := fun s a bs t =>
  let s := s.writeAt a bs
  if !t then s else if a.spad then s.setCurCore (s.curCore.setSpTag a.pa t) else s.setTag a.pa t

/-- The bytes reach the L1 later, with the record of a release's scope; through h0 the store is performed (R428). -/
def State.storeOnWay (s : State) (a : Place) (bs : List Byte) (t : Bool) (scope : Option (BitVec 3)) : State :=
  if a.spad then storeNow s a bs t
  else s.setCur { s.cur with late := s.cur.late ++ [{ pa := a.pa, va := a.va, bytes := bs, tag := t, scope := scope, last := s.lastMate s.ib }] }
def storeLater : StoreBy := fun s a bs t => s.storeOnWay a bs t none

/-- A store of the low n bytes of a register. -/
def State.storeReg (s : State) (r : BitVec 6) (h : BitVec 4) (o : BitVec 64) (n : Nat) (w : StoreBy := storeNow) : Res :=
  s.withAccess h o n true (fun a => s.writeCheck a n (fun s => .ok (w s a (toBytes n (s.reg r).toNat) false)))

/-- LDB (R239). -/
def execLdb (d : BitVec 6) (h : BitVec 4) (o : BitVec 14) (s : State) : Host.Outcome State Fault Refusal :=
  s.finish (.ldb d h o) (s.withRegs [d] (s.load d h (scaled o 1) 1 true))

/-- LDBU (R239). -/
def execLdbu (d : BitVec 6) (h : BitVec 4) (o : BitVec 14) (s : State) : Host.Outcome State Fault Refusal :=
  s.finish (.ldbu d h o) (s.withRegs [d] (s.load d h (scaled o 1) 1 false))

/-- LDH (R239). -/
def execLdh (d : BitVec 6) (h : BitVec 4) (o : BitVec 14) (s : State) : Host.Outcome State Fault Refusal :=
  s.finish (.ldh d h o) (s.withRegs [d] (s.load d h (scaled o 2) 2 true))

/-- LDHU (R239). -/
def execLdhu (d : BitVec 6) (h : BitVec 4) (o : BitVec 14) (s : State) : Host.Outcome State Fault Refusal :=
  s.finish (.ldhu d h o) (s.withRegs [d] (s.load d h (scaled o 2) 2 false))

/-- LDW (R239). -/
def execLdw (d : BitVec 6) (h : BitVec 4) (o : BitVec 14) (s : State) : Host.Outcome State Fault Refusal :=
  s.finish (.ldw d h o) (s.withRegs [d] (s.load d h (scaled o 4) 4 true))

/-- LDWU (R239). -/
def execLdwu (d : BitVec 6) (h : BitVec 4) (o : BitVec 14) (s : State) : Host.Outcome State Fault Refusal :=
  s.finish (.ldwu d h o) (s.withRegs [d] (s.load d h (scaled o 4) 4 false))

/-- LDD (R239). -/
def execLdd (d : BitVec 6) (h : BitVec 4) (o : BitVec 14) (s : State) : Host.Outcome State Fault Refusal :=
  s.finish (.ldd d h o) (s.withRegs [d] (s.load d h (scaled o 8) 8 false))

/-- STB (R239). -/
def execStb (s : BitVec 6) (h : BitVec 4) (o : BitVec 14) (s0 : State) : Host.Outcome State Fault Refusal :=
  s0.finish (.stb s h o) (s0.withRegs [s] (s0.storeReg s h (scaled o 1) 1))

/-- STH (R239). -/
def execSth (s : BitVec 6) (h : BitVec 4) (o : BitVec 14) (s0 : State) : Host.Outcome State Fault Refusal :=
  s0.finish (.sth s h o) (s0.withRegs [s] (s0.storeReg s h (scaled o 2) 2))

/-- STW (R239). -/
def execStw (s : BitVec 6) (h : BitVec 4) (o : BitVec 14) (s0 : State) : Host.Outcome State Fault Refusal :=
  s0.finish (.stw s h o) (s0.withRegs [s] (s0.storeReg s h (scaled o 4) 4))

/-- STD (R239). -/
def execStd (s : BitVec 6) (h : BitVec 4) (o : BitVec 14) (s0 : State) : Host.Outcome State Fault Refusal :=
  s0.finish (.std s h o) (s0.withRegs [s] (s0.storeReg s h (scaled o 8) 8))

/-- LDX (R240). -/
def execLdx (d : BitVec 6) (h : BitVec 4) (x : BitVec 6) (g : BitVec 1) (z : BitVec 2) (s : State) : Host.Outcome State Fault Refusal :=
  s.finish (.ldx d h x g z) (s.withRegs [d, x] (s.load d h (s.reg x) (2 ^ z.toNat) (g == 1)))

/-- STX (R240). -/
def execStx (s : BitVec 6) (h : BitVec 4) (x : BitVec 6) (z : BitVec 2) (s0 : State) : Host.Outcome State Fault Refusal :=
  s0.finish (.stx s h x z) (s0.withRegs [s, x] (s0.storeReg s h (s0.reg x) (2 ^ z.toNat)))

/-- What an LDACQ that waits at its fence has loaded (R391). -/
def State.gotten (s : State) (i : Instr) : Option (List Byte) :=
  match s.cur.waits with
  | some w => if w.instr = i then w.got else none
  | none => none

/-- The end of an LDACQ of host memory, a plain load and then a FENCE full at system scope: what it has loaded stands while the fence waits. -/
def State.loadFenced (s : State) (i : Instr) (d : BitVec 6) (v : BitVec 64) (bs : List Byte) : Res :=
  if s.flushing then .wait (s.setCur { s.cur with waits := some { instr := i, since := s.now, cycle := s.fabric, got := some bs } })
  else s.result d v

/-- LDACQ (R391). -/
def execLdacq (d : BitVec 6) (h : BitVec 4) (x : BitVec 6) (g : BitVec 1) (c : BitVec 3) (z : BitVec 2) (s : State) : Host.Outcome State Fault Refusal :=
  s.finish (.ldacq d h x g c z) (s.withRegs [d, x] (
    let n := 2 ^ z.toNat
    match s.gotten (.ldacq d h x g c z) with
    | some bs => if s.flushing then .wait s else s.result d (extended n (g == 1) bs)
    | none => s.withAccess h (s.reg x) n false (fun a => s.readAt a n (fun s bs =>
        if !a.spad && decide (memKind a.pa = MemKind.host) then s.loadFenced (.ldacq d h x g c z) d (extended n (g == 1) bs) bs
        else s.synchronise a c (fun s => s.result d (extended n (g == 1) bs))))))

/-- How a release writes its bytes at a place at a scope, with the tag of the first word. -/
abbrev ReleaseBy := State → Place → List Byte → Bool → BitVec 3 → Res

/-- At once. -/
def releaseNow : ReleaseBy := fun s a bs t c => s.synchronise a c (fun s => .ok (storeNow s a bs t))

/-- The bytes reach the L1 later: the mode judges the access as it issues (R384), and its record comes with the bytes (log 26). -/
def releaseLater : ReleaseBy := fun s a bs t c =>
  if a.spad || decide (memKind a.pa = MemKind.host) then .ok (s.storeOnWay a bs t none)
  else match s.judgeSync (s.part s.partNo).scopeMode s.partNo s.coreNo c a.pa with
    | (s, true) => .ok (s.storeOnWay a bs t (some c))
    | (s, false) => .trap s (precise cSCOPE_MISMATCH a.va)

/-- STREL's store, a release (R391). -/
def State.storeRelease (s : State) (r : BitVec 6) (h : BitVec 4) (x : BitVec 6) (c : BitVec 3) (n : Nat) (w : ReleaseBy) : Res :=
  s.withAccess h (s.reg x) n true (fun a =>
    if s.fencedHost a then .wait s
    else s.afterAdds (s.writeCheck a n (fun t => w t a (toBytes n (t.reg r).toNat) false c)))

/-- STREL (R391). -/
def execStrel (s : BitVec 6) (h : BitVec 4) (x : BitVec 6) (c : BitVec 3) (z : BitVec 2) (s0 : State) : Host.Outcome State Fault Refusal :=
  s0.finish (.strel s h x c z) (s0.withRegs [s, x] (s0.storeRelease s h x c (2 ^ z.toNat) releaseNow))

/-! ## References and objects (R242-R244) -/

/-- LDREF (R244). -/
def execLdref (d : BitVec 6) (h : BitVec 4) (o : BitVec 14) (s : State) : Host.Outcome State Fault Refusal :=
  s.finish (.ldref d h o) (s.withRegs [d] (
    s.withAccess h (scaled o 8) 8 false (fun a => s.readAt a 8 (fun s bs =>
      let v := BitVec.ofNat 64 (ofBytes bs)
      s.withTag a (fun s t => if t && bits v 0 4 == 0 then s.result d v else .trap s (precise cTAG a.va))))))

/-- What a reference must name: a tagged header word of HBM or the tier, as a fetch finds it (R88), not private to another core (R243). The header
and its address follow. A header that the bank has stored and that has not reached the L1 is waited for. -/
def State.referent (s : State) (v : BitVec 64) (k : State → Nat → BitVec 64 → Res) : Res :=
  match s.cur.unit with
  | none => .ok s
  | some u =>
    match s.walk u.part u.asid v { user := decide (s.cur.level = 0) } with
    | (s, .error c) => .trap s (precise c v)
    | (s, .ok g) =>
      if !(memKind (g.at v) == MemKind.hbm || memKind (g.at v) == MemKind.tier) then .trap s (precise cPERM v)
      else if s.wayMeets s.ib (g.at v) 8 then .hold s .earlier
      else match (s.request u.part (g.at v) 8).fillFault (g.at v) 8 with
      | (s, some c) => .trap s (precise c v)
      | (s, none) =>
        let w := s.peek64 (g.at v)
        if !(s.tagAt (g.at v) && bits w 0 4 == 15) then .trap s (precise cTAG v)
        else if bits w 4 2 = 0 ∧ bits w 48 8 ≠ s.coreNo then .trap s (precise cPRIVATE_ACCESS v)
        else k s (g.at v) w

/-- The place lies in published memory: the directory records its line (R243, R360). -/
def State.published (s : State) (a : Place) : Bool := !a.spad && !s.privateLine (a.pa / 128)

/-- STREF's store (R243). -/
def State.storeReference (s0 : State) (s : BitVec 6) (h : BitVec 4) (off : BitVec 64) (w : StoreBy) : Res :=
  let v := s0.reg s
  if v = 0 then s0.storeReg s h off 8 w
  else if bits v 0 4 ≠ 0 then .trap s0 (precise cTAG v)
  else s0.withAccess h off 8 true (fun a => s0.writeCheck a 8 (fun t =>
    if !a.spad && decide (memKind a.pa = MemKind.host) then .trap t (precise cPERM a.va)
    else t.referent v (fun t _ x =>
      if bits x 4 2 = 0 ∧ t.published a then .trap t (precise cESCAPE a.va)
      else .ok (w t a (toBytes 8 v.toNat) true))))

/-- STREF (R243). -/
def execStref (s : BitVec 6) (h : BitVec 4) (o : BitVec 14) (s0 : State) : Host.Outcome State Fault Refusal :=
  s0.finish (.stref s h o) (s0.withRegs [s] (s0.storeReference s h (scaled o 8) storeNow))

/-- The physical lines behind [va, va + n), page by page with write intent and accessed bits as a copy engine's walks (R242, R283, R360), or
the fault of the page that fails. A later page of host or peer memory passes as any other, and its lines go into the record: R31 and R242 look
at the header's frame alone (log 66). -/
def State.coverPages (s : State) (u : WorkUnit) : Nat → BitVec 64 → Nat → List (Nat × Nat) →
    State × Except (Code × BitVec 64) (List (Nat × Nat))
  | 0, _, _, ls => (s, .ok ls)
  | fuel + 1, va, n, ls =>
    if n = 0 then (s, .ok ls)
    else match s.walk u.part u.asid va { write := true, user := decide (s.cur.level = 0) } with
      | (s, .error c) => (s, .error (c, va))
      | (s, .ok g) =>
        let pa := g.at va
        let m := Nat.min n (g.size - va.toNat % g.size)
        (s.setAccessed g).coverPages u fuel (va + BitVec.ofNat 64 m) (n - m) (ls ++ [(pa / 128, (pa + m - 1) / 128 - pa / 128 + 1)])

/-- A private object's record replaces any earlier record of its header (R37, R360). -/
def State.enterPrivate (s : State) (header owner : Nat) (lines : List (Nat × Nat)) : State :=
  let r : LineRecord := { header := header, owner := owner, sealed := false, lines := lines }
  { s with records := s.records.filter (fun x => x.header ≠ header) ++ [r],
           scopes := s.scopes.filter (fun x => !lines.any (fun l => decide (l.1 ≤ x.1 ∧ x.1 < l.1 + l.2))) }

/-- OBJINIT at a place (R242): the header bytes must be writable, the pages of the body translate, no byte lies in a SEALED object. What has been
stored to the object's lines is performed first, as R360's recall needs. It waits while the Crock of its header has no room for its record
(R387), once the header's checks have passed, and an error of that Crock's is its POISON (R413) after the body's; the rules give no order
between them (log 51). -/
def State.initObject (s0 : State) (a : Place) (h : BitVec 4) (v : BitVec 64) (write : StoreBy) : Res :=
  let size16 := bits v 0 32
  if a.spad then .trap s0 (precise cPERM a.va)
  else if s0.foreignPrivate (some s0.coreNo) a.pa 16 then .trap s0 (precise cPRIVATE_ACCESS a.va)
  else if s0.sealedAt a.pa 16 then .trap s0 (precise cSEALED_WRITE a.va)
  else match (s0.chargeAt a 16).writeFault a.pa 16 with
    | (s, some c) => .trap s (precise c a.va)
    | (s, none) =>
      if !(memKind a.pa == MemKind.hbm || memKind a.pa == MemKind.tier) then .trap s (precise cPERM a.va)
      else if size16 = 0 then .trap s (precise cTAG a.va)
      else if s.noRoom s.partNo a.pa then .wait s0
      else match s.cur.unit with
        | none => .ok s
        | some u =>
          let x := s.cur.handle h.toNat
          let first := Nat.min (16 * size16) (x.limit - (a.va - x.va).toNat)
          match s.coverPages u (16 * size16 / 65536 + 2) (a.va + BitVec.ofNat 64 first) (16 * size16 - first)
              [(a.pa / 128, (a.pa + first - 1) / 128 - a.pa / 128 + 1)] with
          | (s, .error (c, va)) => .trap s { precise c va with page := if c = cPAGE then some h.toNat else none }
          | (s, .ok lines) =>
            if s.records.any (fun r => r.sealed && lines.any (fun l => r.lines.any (fun m =>
                decide (l.1 < m.1 + m.2 ∧ m.1 < l.1 + l.2)))) then .trap s (precise cSEALED_WRITE a.va)
            else if s.crockFails a.pa then .trap (s.clearCrock a.pa) (precise cPOISON a.va)
            else
              let w0 := headerWord u.part s.coreNo size16 0 0
              .ok (write ((s.flushLate lines).enterPrivate a.pa s.coreNo lines) a (toBytes 8 w0 ++ toBytes 8 (bits v 32 16)) true)

/-- OBJINIT (R242). -/
def execObjinit (s : BitVec 6) (h : BitVec 4) (o : BitVec 14) (s0 : State) : Host.Outcome State Fault Refusal :=
  s0.finish (.objinit s h o) (s0.withRegs [s] (
    s0.withAccess h (scaled o 16) 16 true (fun a => s0.initObject a h (s0.reg s) storeNow)))

/-! ## Handles (R232-R236) -/

/-- XLATE (R234). -/
def execXlate (h : BitVec 4) (a : BitVec 6) (w : BitVec 1) (s : State) : Host.Outcome State Fault Refusal :=
  s.finish (.xlate h a w) (s.withRegs [a] (
    let x : Handle := { state := .translating, va := s.reg a, wi := w == 1, user := decide (s.cur.level = 0), walk := s.walkNo + 1,
                        start := s.cycles }
    if (s.cur.handle h.toNat).state = .translating then .wait s
    else .ok ({ s with walkNo := s.walkNo + 1 }.setCur (s.cur.setHandle h.toNat x))))

def HandleState.number (x : HandleState) : Nat :=
  match x with | .invalid => 0 | .valid => 1 | .pending => 2 | .translating => 2 | .fault _ => 3

/-- HINFO's value (R235). -/
def Handle.info (x : Handle) (h0 : Bool) (k : BitVec 2) : BitVec 64 :=
  match k.toNat with
  | 0 => BitVec.ofNat 64 (x.state.number + (if x.wi && x.state != .invalid then 4 else 0)
      + (match x.state with | .fault c => c.toNat * 256 | _ => 0))
  | 1 => if h0 then 0 else x.va
  | 2 => if x.state = .valid then BitVec.ofNat 64 x.size else 0
  | _ => if x.state = .valid then zx x.gen else 0

/-- HINFO (R235). -/
def execHinfo (d : BitVec 6) (h : BitVec 4) (k : BitVec 2) (s : State) : Host.Outcome State Fault Refusal :=
  s.finish (.hinfo d h k) (s.withRegs [d] (
    let x := s.cur.handle h.toNat
    if x.state = .translating then .wait s else s.result d (x.info (h == 0) k)))

/-- HDROP (R236). -/
def execHdrop (h : BitVec 4) (s : State) : Host.Outcome State Fault Refusal :=
  s.finish (.hdrop h) (
    let x := s.cur.handle h.toNat
    if x.state = .translating then .wait s
    else .ok (s.setCur (s.cur.setHandle h.toNat { va := x.va })))

/-- The handle as its walk leaves it (R231, R233). -/
def Handle.walked (x : Handle) (r : Except Code Page) : Handle :=
  let st : HandleState := match r with | .ok _ => .valid | .error c => .fault c
  let x := match r with
    | .ok g => { x with frame := g.frame, size := g.size, limit := g.size - x.va.toNat % g.size, perm := g.perm, gen := g.gen }
    | .error _ => x
  if x.state = .translating then { x with result := some st }
  else if x.revoked then { va := x.va }
  else { x with state := st, result := none }

/-- The handle when its 32 cycles are over (R233). -/
def Handle.windowed (x : Handle) : Handle :=
  match x.result with
  | some st => if x.revoked then { va := x.va } else { x with state := st, result := none }
  | none => { x with state := .pending }

/-- A handle that carries a walk which has not given its result. -/
def Handle.walking (x : Handle) (walk : Nat) : Bool :=
  walk != 0 && x.walk == walk && (x.state == .translating || x.state == .pending)

/-- The copies of a bank that carry a walk see what becomes of it (R282). -/
def State.tellCopies (s : State) (b walk : Nat) (f : Handle → Handle) : State :=
  s.mapEntries b (fun e => if e.handle.walking walk then { e with handle := f e.handle } else e)

/-- PAGE_WALK_COMPLETE (R233). -/
def execPageWalkComplete (bank : Nat) (h : Nat) (s : State) : Host.Outcome State Fault Refusal :=
  .next (
    let bk := s.bank bank
    let x := bk.handle h
    match bk.unit with
    | none => s
    | some u =>
      if h ≠ 0 ∧ ((x.state = .translating ∧ x.result = none) ∨ x.state = .pending) then
        let (s, r) := s.walk u.part u.asid x.va { write := x.wi, user := x.user }
        let s := match r with | .ok g => s.setAccessed g | .error _ => s
        (s.setBank bank ((s.bank bank).setHandle h (((s.bank bank).handle h).walked r))).tellCopies bank x.walk (·.walked r)
      else s)

/-- TRANSLATION_WINDOW_END (R233): no sooner than 32 cycles after the XLATE (R232, R234). -/
def execTranslationWindowEnd (bank : Nat) (h : Nat) (s : State) : Host.Outcome State Fault Refusal :=
  .next (
    let bk := s.bank bank
    let x := bk.handle h
    if h ≠ 0 ∧ x.state = .translating ∧ x.start + 32 ≤ s.cycles then
      (s.setBank bank (bk.setHandle h x.windowed)).tellCopies bank x.walk (·.windowed)
    else s)

/-! ## The tag table (R250) -/

/-- The valid entry with a key. -/
def Core.tagSlot (c : Core) (key : BitVec 64) : Option Nat :=
  (c.tagTable.find? (fun (x : Nat × Option (BitVec 64)) => x.2 == some key)).map (·.1)

def Core.setTagSlot (c : Core) (n : Nat) (v : Option (BitVec 64)) : Core := { c with tagTable := SMap.set none c.tagTable n v }

/-- STLK (R250). -/
def execStlk (d : BitVec 6) (a : BitVec 6) (s : State) : Host.Outcome State Fault Refusal :=
  s.finish (.stlk d a) (s.withRegs [d, a] (s.result d (match s.curCore.tagSlot (s.reg a) with
    | some n => BitVec.ofNat 64 n
    | none => BitVec.allOnes 64)))

/-- STINS (R250). -/
def execStins (a : BitVec 6) (b : BitVec 6) (s : State) : Host.Outcome State Fault Refusal :=
  s.finish (.stins a b) (s.withRegs [a, b] (
    if 4096 ≤ (s.reg b).toNat then .trap s (precise cHANDLE_BOUNDS (s.reg b))
    else
      let c := s.curCore
      let c := match c.tagSlot (s.reg a) with | some n => c.setTagSlot n none | none => c
      .ok (s.setCurCore (c.setTagSlot (s.reg b).toNat (some (s.reg a))))))

/-- STINV (R250). -/
def execStinv (a : BitVec 6) (s : State) : Host.Outcome State Fault Refusal :=
  s.finish (.stinv a) (s.withRegs [a] (
    if 4096 ≤ (s.reg a).toNat then .trap s (precise cHANDLE_BOUNDS (s.reg a))
    else .ok (s.setCurCore (s.curCore.setTagSlot (s.reg a).toNat none))))

end Sys2Proof.Machine
end

