-- ==== Sys2Proof/Machine/Lease.lean ====
section
/-! DEFINITION. Sessions and leases of the Vat (R211-R218, R226): who requests, arbitration, the grant, and the moments at which a
lease ends. -/

namespace Sys2Proof.Machine

def State.setVat (s : State) (core : Nat) (v : Vat) : State := s.setCore core { (s.core core) with vat := v }

/-- Member 0's bank of the unit in bank b. -/
def State.leadBank (s : State) (b : Nat) : Nat := match (s.bank b).unit with | some u => bankOf b u.base | none => b

/-- The members' clusters of the unit in bank b. -/
def State.unitClusters (s : State) (b : Nat) : List Nat := match (s.bank b).unit with | some u => u.clusters | none => [b / 2]

/-- The session number that marks a Vat command found uncovered (R213). -/
def uncovered : VatSession := { no := 0, n := 0 }

/-- A Vat command of a session that has not started. -/
def QEntry.awaits (e : QEntry) (k : VatSession) : Bool := e.isVat && e.queued && e.session == some k

/-- Vat commands of a session wait in some member's queue, or were set aside. -/
def State.sessionWaits (s : State) (b : Nat) (k : VatSession) : Bool :=
  (s.unitClusters b).any (fun cl => (s.cluster cl).qC.any (·.awaits k) || (s.bank (bankOf b cl)).aside.any (fun x => x.2.awaits k))

/-- A Vat command of a session occupies the array. -/
def State.sessionRuns (s : State) (b : Nat) (k : VatSession) : Bool :=
  (s.unitClusters b).any (fun cl => (s.cluster cl).qC.any (fun e => e.occupying && e.session == some k))

/-- The session is open. -/
def State.sessionOpen (s : State) (b : Nat) (k : VatSession) : Bool := (s.bank (s.leadBank b)).session == some k

/-- The session of a Vat command that reaches the head of a C queue now (R213): the open one, or none that covers it. -/
def State.coverOf (s : State) (cl : Nat) : VatSession :=
  match (s.bank (s.leadBank (s.activeBank cl))).session with | some k => k | none => uncovered

/-- Judge the Vat command at the head of a C queue (R213): it belongs to the open session, or is uncovered. -/
def State.judge (s : State) (cl : Nat) : State :=
  match nextQueued (s.cluster cl).qC with
  | some e =>
    if e.isVat && e.session.isNone && !(s.cluster cl).haltC then
      s.setQueue cl .C (replaceFirst (·.queued) { e with session := some (s.coverOf cl) } (s.cluster cl).qC)
    else s
  | none => s

/-- The sessions for which Vat commands wait in a cluster's C queue: those judged, and the open one for those behind (R211). -/
def State.waitingSessions (s : State) (cl : Nat) : List VatSession :=
  ((s.cluster cl).qC.filter (fun e => e.isVat && e.queued)).map (fun e => match e.session with | some k => k | none => s.coverOf cl)

/-- The session that holds the Vat, when the unit in bank b does. -/
def State.leasedSession (s : State) (b : Nat) : Option VatSession :=
  if s.holdsVat b then (s.core (b / 8)).vat.lease.map (·.session) else none

/-- The sessions of the unit in the active bank of a cluster that request the Vat: those that wait for a first grant, and those that have a
Vat command waiting, but for the one that holds the lease (R211, R212). -/
def State.requestsOf (s : State) (cl : Nat) : List VatSession :=
  let b := s.activeBank cl
  match (s.bank b).unit with
  | some u =>
    if u.member ≠ 0 then []
    else ((s.bank b).vregs.map (·.1) ++ u.clusters.flatMap (fun k => s.waitingSessions k)).filter
      (fun k => decide (k.no ≠ 0) && s.leasedSession b != some k)
  | none => []

def lowestSession : List VatSession → Option VatSession
  | [] => none
  | k :: ks => match lowestSession ks with
    | some j => some (if j.no < k.no then j else k)
    | none => some k

/-- The first requester of a core in the cyclic order h + 1, h + 2, h + 3, h (R211). Of two sessions of one unit the older is granted first:
the spec does not say which (log 58). -/
def State.nextRequester (s : State) (core : Nat) : Option (Nat × VatSession) :=
  let h := (s.core core).vat.lastHolder.toNat
  ([1, 2, 3, 4].map (fun i => 4 * core + (h + i) % 4)).findSome? (fun cl =>
    match lowestSession (s.requestsOf cl) with
    | some k => some (cl, k)
    | none => none)

/-- VAT_ARBITRATION (R211). -/
def execVatArbitration (core : Nat) (s : State) : Host.Outcome State Fault Refusal :=
  .next (
    let v := (s.core core).vat
    if v.lease.isSome || v.picked.isSome then s
    else match s.nextRequester core with
      | some (cl, k) => s.setVat core { v with picked := some (cl, s.activeBank cl % 2, k, s.cycles) }
      | none => s)

/-- The first grant of a session writes the VLEASE's register (R216). -/
def Bank.firstGrant (b : Bank) (k : VatSession) (v : BitVec 64) : Bank :=
  b.vregs.foldl (fun (b : Bank) (x : VatSession × Nat) =>
    if x.1 = k then
      { b with s := if x.2 = 0 then b.s else SMap.set 0 b.s x.2 v, pend := eraseOne x.2 b.pend, vregs := b.vregs.filter (fun y => y.1 != k) }
    else b) b

/-- A grant to the picked requester (R211, R216, R217). A unit that has left, or whose bank has drained, holds nothing; the last holder is then
the cluster of a unit that has left all the same (R211 does not say; log 58). -/
def State.grantVat (s : State) (core base bank : Nat) (k : VatSession) : State :=
  let b := 2 * base + bank
  let v := { (s.core core).vat with picked := none }
  match (s.bank b).unit with
  | none => s.setVat core { v with lastHolder := BitVec.ofNat 2 base }
  | some u =>
    if !(s.sessionOpen b k || s.sessionWaits b k || (s.bank b).vregs.any (fun x => x.1 == k)) then
      s.setVat core { v with lastHolder := BitVec.ofNat 2 base }
    else if s.activeBank base ≠ b then s.setVat core v
    else
      let keep := s.sessionOpen b k || s.sessionWaits b k
      let lease : Lease := { cluster := base, bank := bank, width := u.width, left := k.n.toNat, granted := s.cycles, session := k }
      let s := s.setVat core { v with lastHolder := BitVec.ofNat 2 base, lease := if keep then some lease else none }
      s.setBank b ((s.bank b).firstGrant k (BitVec.ofNat 64 (256 * k.n.toNat)))

/-- VAT_GRANT (R211). 4 cycles after arbitration (R211). -/
def execVatGrant (core : Nat) (s : State) : Host.Outcome State Fault Refusal :=
  .next (match (s.core core).vat.picked with
    | some (base, bank, k, t) => if t + 4 ≤ s.cycles then s.grantVat core base bank k else s
    | none => s)

/-- The cycle from which no command starts under a lease (R212). -/
def Lease.deadline (l : Lease) : Nat := l.granted + 8192

/-- The lease is over once no command of it runs: its n commands have started, its time is out, or its session is closed and nothing
of it waits (R212). -/
def State.leaseSpent (s : State) (l : Lease) : Bool :=
  let b := 2 * l.cluster + l.bank
  l.left == 0 || decide (l.deadline ≤ s.cycles) || (!s.sessionOpen b l.session && !s.sessionWaits b l.session)

/-- End the lease of a core when its array is free and the lease is over. -/
def State.checkLease (s : State) (core : Nat) : State :=
  let v := (s.core core).vat
  match v.lease with
  | some l => if v.running.isNone && s.leaseSpent l then s.setVat core { v with lease := none } else s
  | none => s

/-- LEASE_TIMEOUT (R212). -/
def execLeaseTimeout (core : Nat) (s : State) : Host.Outcome State Fault Refusal :=
  .next (match (s.core core).vat.lease with
    | some l => if l.deadline ≤ s.cycles then s.checkLease core else s
    | none => s)

/-- The first entry of a queue that `pick` takes. -/
def pickEntry (pick : QEntry → Bool) (es : List QEntry) : Option QEntry := es.find? pick

/-- VAT_OCCUPANCY_END (R214). The next command of the lease may start; the command's writes are made 32 cycles later (R214). -/
def execVatOccupancyEnd (core : Nat) (s : State) : Host.Outcome State Fault Refusal :=
  .next (
    let v := (s.core core).vat
    match v.running with
    | some (cl, t) =>
      if s.cycles < t then s
      else
        let s := s.setVat core { v with running := none, leaving := v.leaving ++ [(cl, s.cycles + 32)], idleFrom := s.cycles }
        let q := (s.cluster cl).qC
        let s := match q.find? (·.occupying) with
          | some e => (match e.phase with
            | .occupying ws => s.setQueue cl .C (replaceFirst (·.occupying) { e with phase := .draining ws } q)
            | _ => s)
          | none => s
        (s.judge cl).checkLease core
    | none => s)

/-- VAT_COMMAND_COMPLETE (R214). -/
def execVatCommandComplete (core : Nat) (s : State) : Host.Outcome State Fault Refusal :=
  .next (
    let v := (s.core core).vat
    match v.leaving with
    | (cl, t) :: rest =>
      if s.cycles < t then s
      else
        let s := s.setVat core { v with leaving := rest }
        (match (s.cluster cl).qC.find? (·.draining) with
          | some e => (match e.phase with
            | .draining ws => (s.completeOp cl .C e ws).judge cl
            | _ => s)
          | none => s)
    | [] => s)

/-- VAT_POWER_DOWN (R226). -/
def execVatPowerDown (core : Nat) (s : State) : Host.Outcome State Fault Refusal :=
  .next (
    let v := (s.core core).vat
    if v.asleep || v.running.isSome || v.idle == 0 || decide (s.cycles < v.idleFrom + v.idle.toNat) then s
    else s.setVat core { v with asleep := true })

/-! ## The lease register (R215) -/

/-- lease, 0x006, of a bank. -/
def State.leaseReg (s : State) (b : Nat) : BitVec 64 :=
  let lead := s.leadBank b
  let held := s.holdsVat b
  let (left, commands) := match (s.core (b / 8)).vat.lease with
    | some l => if held then (l.deadline - s.cycles, l.left) else (0, 0)
    | none => (0, 0)
  let n := match (s.bank lead).session with | some k => k.n.toNat | none => 0
  BitVec.ofNat 64 (left % 2 ^ 14 * 2 ^ 32 + commands * 2 ^ 16 + n * 2 ^ 8
    + (if s.activeBank (lead / 2) = lead ∧ !(s.requestsOf (lead / 2)).isEmpty then 4 else 0) + (if held then 2 else 0)
    + (if (s.bank lead).session.isSome then 1 else 0))

/-! ## VLEASE and VFREE (R216, R217) -/

/-- VLEASE (R216). -/
def execVlease (d : BitVec 6) (n : BitVec 7) (s : State) : Host.Outcome State Fault Refusal :=
  s.finish (.vlease d n) (s.withRegs [d] (s.wholeUnit (.vlease d n) (fun _ =>
    if s.cur.session.isSome then .trap s (precise cLEASE (s.leaseReg s.ib))
    else
      let v := s.curCore.vat
      let k : VatSession := { no := v.sessions + 1, n := n }
      let s := s.setVat s.coreNo { v with sessions := v.sessions + 1 }
      .ok (s.setCur { (s.cur.markPending d) with session := some k, vregs := s.cur.vregs ++ [(k, d.toNat)] }))))

/-- Every Vat command of a queue that has no session yet belongs to the one that is being closed. -/
def claimEntries (k : VatSession) (es : List QEntry) : List QEntry :=
  es.map (fun e => if e.isVat && e.queued && e.session.isNone then { e with session := some k } else e)

/-- Close the session of the unit in bank b, if one is open (R217). -/
def State.closeSession (s : State) (b : Nat) : State :=
  let lead := s.leadBank b
  match (s.bank lead).session with
  | none => s
  | some k =>
    let s := (s.unitClusters b).foldl (fun (s : State) cl =>
      s.setQueue cl .C (claimEntries k (s.cluster cl).qC)) s
    let s := s.setBank lead { (s.bank lead) with session := none }
    let v := (s.core (b / 8)).vat
    let picked := match v.picked with | some (_, _, j, _) => j == k | none => false
    let s := if picked || s.sessionWaits b k then s
      else s.setBank lead ((s.bank lead).firstGrant k (BitVec.ofNat 64 (256 * k.n.toNat + 0x12)))
    if s.holdsVat b && !s.sessionRuns b k then s.checkLease (b / 8) else s

/-- VFREE (R217). -/
def execVfree (s : State) : Host.Outcome State Fault Refusal :=
  s.finish .vfree (s.wholeUnit .vfree (fun _ => .ok (s.closeSession s.ib)))

end Sys2Proof.Machine
end

