-- ==== Sys2Proof/Machine/Pages.lean ====
section
/-! DEFINITION. Page faults in a bank (R259-R261): the drain, the switch to bank B, the answer and the resumption (R411). -/

namespace Sys2Proof.Machine

/-! ## Draining (R259, R261) -/

/-- Set the operations of bank A aside with their queues' halts, and make bank B active. -/
def State.setAside (s : State) (cl : Nat) : State :=
  let c := s.cluster cl
  let b := s.bank (2 * cl)
  let aside := c.qL.map (fun e => (QueueName.L, e)) ++ c.qC.map (fun e => (QueueName.C, e)) ++ c.qS.map (fun e => (QueueName.S, e))
  let page := match b.page with | some w => some { w with drained := true } | none => none
  let s := s.setBank (2 * cl) { b with aside := aside, halts := (c.haltL, c.haltC, c.haltS), page := page }
  let s := (s.clearQueues cl).clearTags cl
  s.setCluster cl { (s.cluster cl) with activeB := true }

/-- Some member's bank A of the unit waits for an answer and has not drained. -/
def State.mustDrain (s : State) (u : WorkUnit) : Bool :=
  u.clusters.any (fun cl => match (s.bank (2 * cl)).page with | some w => !w.drained && !w.resumed | none => false)

/-- PAGE_FAULT_DRAIN (R259). The unit's clusters, once they are at rest, switch to bank B together. -/
def execPageFaultDrain (cl : Nat) (s : State) : Host.Outcome State Fault Refusal :=
  .next (match s.unitA cl with
    | some u =>
      if s.mustDrain u && u.clusters.all (fun k => s.activeBank k == 2 * k && s.atRest k) then
        let s := s.endLease (2 * cl)
        let s := u.clusters.foldl (fun (s : State) k => s.setAside k) s
        u.clusters.foldl (fun (s : State) k => s.popB u.part k) s
      else s
    | none => s)

/-! ## Resuming (R260, R261) -/

/-- Bank A's queues stand as they were set aside, with their halts (R405, R406). -/
def State.restore (s : State) (cl : Nat) : State :=
  let b := s.bank (2 * cl)
  let of := fun q => (b.aside.filter (fun x => x.1 == q)).map (·.2)
  let c := s.cluster cl
  let s := s.setCluster cl { c with activeB := false, qL := of .L, qC := of .C, qS := of .S,
                                    haltL := b.halts.1, haltC := b.halts.2.1, haltS := b.halts.2.2 }
  let page := match b.page with | some w => if w.failed then some { w with resumed := true } else none | none => none
  s.setBank (2 * cl) { b with aside := [], halts := (false, false, false), page := page, waits := none, watch := none, progress := s.now }

/-- The pages of a unit's members that the commit budget has still to leave out. -/
def State.uncounted (s : State) (u : WorkUnit) : List PageWait :=
  (u.clusters.filterMap (fun k => (s.bank (2 * k)).page)).filter (fun w => !w.counted)

/-- With the last answer the commit budget leaves out the ticks of the wait (R83). -/
def State.creditWait (s : State) (cl : Nat) : State :=
  match s.unitA cl with
  | none => s
  | some u =>
    if s.awaitsPage cl then s
    else
      let waited := ((s.uncounted u).map (fun w => (s.now - w.since).toNat)).foldl Nat.max 0
      let s := u.clusters.foldl (fun (s : State) k =>
        s.setBank (2 * k) { (s.bank (2 * k)) with page := (s.bank (2 * k)).page.map (fun w => { w with counted := true }) }) s
      { s with banks := updUnit u.id (fun x => { x with commitTime := x.commitTime + BitVec.ofNat 64 waited }) s.banks }

/-- The clusters that go back to bank A together with cluster cl. -/
def State.resumeGroup (s : State) (cl : Nat) : List Nat :=
  match s.unitA cl with
  | some u => u.clusters.filter (fun k => (s.cluster k).activeB)
  | none => [cl]

/-- BANK_A_RESUME (R260). Bank B is at a scheduling point when it holds no unit. -/
def execBankAResume (cl : Nat) (s : State) : Host.Outcome State Fault Refusal :=
  .next (
    let g := s.resumeGroup cl
    if (s.cluster cl).activeB && !s.awaitsPage cl && g.all (fun k => (s.bank (2 * k + 1)).unit.isNone) then
      g.foldl (fun (s : State) k => s.restore k) s
    else s)

/-! ## Answers (R411) -/

/-- The handle of an answered page fault walks anew (R233). -/
def Handle.rewalk (h : Handle) : Handle :=
  if h.state = .fault cPAGE then { h with state := .pending, result := none, revoked := false } else h

/-- An answer reaches the bank that waits on the request; in bank B the wait is over with it. -/
def Bank.answered (b : Bank) (k : Nat) (id : Nat) (fail : Bool) (now : BitVec 64) : Bank :=
  match b.page with
  | none => b
  | some w =>
    if w.resumed || !w.ids.contains id then b
    else
      let w := { w with ids := w.ids.filter (· ≠ id), failed := w.failed || fail }
      let b := if fail then b
        else { b with h := if w.handle = 0 then b.h
          else SMap.set {} b.h w.handle (SMap.get {} b.h w.handle).rewalk }
      if k % 2 = 1 && w.ids.isEmpty then { b with page := (if w.failed then some { w with resumed := true } else none), progress := now }
      else { b with page := some w }

/-- RETRY walks the handle of a failed copy anew, in its register and in the copies that took it (R233, R411). -/
def State.rewalkCopy (s : State) (b walk : Nat) : State :=
  if walk = 0 then s
  else
    let f := fun (h : Handle) => if h.walk = walk then h.rewalk else h
    let s := s.setBank b { (s.bank b) with h := (s.bank b).h.map (fun x => (x.1, f x.2)) }
    s.mapEntries b (fun e => if e.unmoved then { e with handle := f e.handle } else e)

/-- Answer a page request of a partition: RETRY, or FAIL. An id that is not outstanding is ignored. -/
def State.answerPage (s : State) (p id : Nat) (fail : Bool) : State :=
  let x := s.part p
  match x.requests.find? (fun (q : PageRequest) => decide (q.id = id)) with
  | none => s
  | some q =>
    let s := s.setPart p { x with
      requests := x.requests.filter (fun r => r.id ≠ id)
      answers := x.answers.map (fun a => if a.request = id then { a with answered := true, failed := fail } else a) }
    if q.copy then (if fail then s else s.rewalkCopy q.bank q.walk)
    else
      let s := s.setBank q.bank ((s.bank q.bank).answered q.bank id fail s.now)
      if q.bank % 2 = 0 then s.creditWait (q.bank / 2) else s

/-- PAGE_ANSWER_RETRY (R411). -/
def execPageAnswerRetry (p : Nat) (id : Nat) (s : State) : Host.Outcome State Fault Refusal :=
  .next (s.answerPage p id false)

/-- PAGE_ANSWER_FAIL (R411). -/
def execPageAnswerFail (p : Nat) (id : Nat) (s : State) : Host.Outcome State Fault Refusal :=
  .next (s.answerPage p id true)

/-- The value of vf_page_ans and of TRAP 0xFF1. -/
def State.pageAnswer (s : State) (p : Nat) (v : BitVec 64) : State :=
  match bits v 32 8 with
  | 0 => s.answerPage p (bits v 0 32) false
  | 1 => s.answerPage p (bits v 0 32) true
  | _ => s

/-- PAGE_REQUEST_TIMEOUT (R411). The device answers FAIL and writes a second record, with timeout and page request (R410, R416). -/
def execPageRequestTimeout (p : Nat) (id : Nat) (s : State) : Host.Outcome State Fault Refusal :=
  .next (
    let x := s.part p
    match x.requests.find? (fun (q : PageRequest) => decide (q.id = id)) with
    | none => s
    | some q =>
      if x.pageLimit ≠ 0 ∧ x.pageLimit.toNat * 1000 ≤ (s.now - q.time).toNat then
        let s := s.faultRecord p (recordBytes cPAGE 0x50 q.job q.wher q.seq (q.bank / 8) 0 q.pc q.va 0 q.launch q.graph q.phase s.now id)
        s.answerPage p id true
      else s)

end Sys2Proof.Machine
end

