-- ==== Sys2Proof/Machine/Flags.lean ====
section
/-! DEFINITION. The sticky floating-point flags (R184). Which flags an operation raises is part of its result in Float.lean; compares
give 0 or 1 (R136), so the machine has no condition flags. -/

namespace Sys2Proof.Machine

/-! ## Sticky flags (R184) -/

abbrev Flags := BitVec 6
def fInvalid : Flags := 1
def fDivzero : Flags := 2
def fOverflow : Flags := 4
def fUnderflow : Flags := 8
def fInexact : Flags := 16
def fC4nan : Flags := 32

def flagIf (c : Bool) (f : Flags) : Flags := if c then f else 0

end Sys2Proof.Machine
end

