-- ==== Sys2Proof/Machine/Float.lean ====
section
/-! DEFINITION. Number formats and rounding (R159-R166, R169, R171-R175): exact values as dyadic numbers, rounded once. -/

namespace Sys2Proof.Machine

/-! ## Exact values -/

/-- val(): a NaN (signalling or not), an infinity, or (-1)^neg · m · 2^e. -/
inductive Val where
  | nan (signalling : Bool)
  | inf (neg : Bool)
  | fin (neg : Bool) (m : Nat) (e : Int)
  deriving DecidableEq, Repr

/-- The value of an FP32 pattern (R160). -/
def valF (x : BitVec 32) : Val :=
  let neg := bit x 31
  let ex := bits x 23 8
  let fr := bits x 0 23
  if ex = 255 then (if fr = 0 then .inf neg else .nan (!bit x 22))
  else if ex = 0 then .fin neg fr (-149)
  else .fin neg (fr + 2 ^ 23) ((ex : Int) - 150)

/-- The value of a BF16 pattern: that of the FP32 pattern b << 16 (R160). -/
def valB (x : BitVec 16) : Val := valF (x ++ 0#16)

def Val.isNan (v : Val) : Bool := match v with | .nan _ => true | _ => false
def Val.isSnan (v : Val) : Bool := match v with | .nan s => s | _ => false
def Val.isZero (v : Val) : Bool := match v with | .fin _ 0 _ => true | _ => false
def Val.neg (v : Val) : Val :=
  match v with | .nan s => .nan s | .inf n => .inf (!n) | .fin n m e => .fin (!n) m e

def canonNan : Lane := 0x7FC00000

/-! ## Rounding (R171, R172, R174) -/

/-- m / 2^k rounded to an integer under a mode, and whether it was inexact. -/
def roundShift (m k : Nat) (neg : Bool) (mode : BitVec 2) : Nat × Bool :=
  let q := m >>> k
  let r := m % 2 ^ k
  if r = 0 then (q, false)
  else
    let up := match mode.toNat with
      | 0 => decide (2 ^ k < 2 * r) || (2 * r == 2 ^ k && q % 2 == 1)
      | 1 => false
      | 2 => !neg
      | _ => neg
    (if up then q + 1 else q, true)

/-- m · 2^e as a whole multiple of 2^q. -/
def roundTo (m : Nat) (e q : Int) (neg : Bool) (mode : BitVec 2) : Nat × Bool :=
  if q ≤ e then (m * 2 ^ (e - q).toNat, false) else roundShift m (q - e).toNat neg mode

/-- Round (-1)^neg · m · 2^e, m > 0, to a binary format of p significand bits whose smallest step is 2^emin and whose exponent
field has 8 bits: the pattern without its sign, and the flags. -/
def roundMag (p : Nat) (emin : Int) (mode : BitVec 2) (neg : Bool) (m : Nat) (e : Int) : Nat × Flags :=
  let top := (m.log2 : Int) + e
  let free := top + 1 - p
  let q := if free < emin then emin else free
  let (n, inexact) := roundTo m e q neg mode
  let (n', _) := roundTo m e free neg mode
  let tiny := decide ((n'.log2 : Int) + free < emin + p - 1)
  let pat := (q - emin).toNat * 2 ^ (p - 1) + n
  let inf := 255 * 2 ^ (p - 1)
  if inf ≤ pat then
    let toInf := match mode.toNat with | 0 => true | 1 => false | 2 => !neg | _ => neg
    (if toInf then inf else inf - 1, fOverflow ||| fInexact)
  else (pat, flagIf inexact fInexact ||| flagIf (inexact && tiny) fUnderflow)

/-- round_f32 of a nonzero finite value. -/
def roundF (mode : BitVec 2) (neg : Bool) (m : Nat) (e : Int) : Lane × Flags :=
  let (p, f) := roundMag 24 (-149) mode neg m e
  (BitVec.ofNat 32 (p + if neg then 2 ^ 31 else 0), f)

/-- round_bf16 of a nonzero finite value. -/
def roundB (mode : BitVec 2) (neg : Bool) (m : Nat) (e : Int) : BitVec 16 × Flags :=
  let (p, f) := roundMag 8 (-133) mode neg m e
  (BitVec.ofNat 16 (p + if neg then 2 ^ 15 else 0), f)

def zeroF (neg : Bool) : Lane := if neg then 0x80000000 else 0
def infF (neg : Bool) : Lane := if neg then 0xFF800000 else 0x7F800000

/-- round_f32 of a value, an exact zero keeping its sign; a NaN is canon_nan (R173). -/
def Val.toF (v : Val) (mode : BitVec 2) : Lane × Flags :=
  match v with
  | .nan _ => (canonNan, 0)
  | .inf n => (infF n, 0)
  | .fin n 0 _ => (zeroF n, 0)
  | .fin n m e => roundF mode n m e

/-- round_bf16 of a value. -/
def Val.toB (v : Val) (mode : BitVec 2) : BitVec 16 × Flags :=
  match v with
  | .nan _ => (0x7FC0, 0)
  | .inf n => (if n then 0xFF80 else 0x7F80, 0)
  | .fin n 0 _ => (if n then 0x8000 else 0, 0)
  | .fin n m e => roundB mode n m e

/-! ## Exact sums and products -/

def signed (neg : Bool) (m : Nat) : Int := if neg then -(m : Int) else m

/-- a + b for finite values as an integer multiple of 2^e. -/
def addExact (na : Bool) (ma : Nat) (ea : Int) (nb : Bool) (mb : Nat) (eb : Int) : Int × Int :=
  let e := if ea < eb then ea else eb
  (signed na ma * 2 ^ (ea - e).toNat + signed nb mb * 2 ^ (eb - e).toNat, e)

/-- The sum of two values with its flags but those of rounding and of signalling inputs. An exact zero sum of opposite signs is -0
under RDN and +0 otherwise (R172). -/
def addVal (a b : Val) (mode : BitVec 2) : Val × Flags :=
  match a, b with
  | .nan _, _ => (.nan false, 0)
  | _, .nan _ => (.nan false, 0)
  | .inf x, .inf y => if x = y then (.inf x, 0) else (.nan false, fInvalid)
  | .inf x, _ => (.inf x, 0)
  | _, .inf y => (.inf y, 0)
  | .fin na ma ea, .fin nb mb eb =>
    let (t, e) := addExact na ma ea nb mb eb
    if t = 0 then (.fin (if na = nb then na else mode == 3) 0 0, 0)
    else (.fin (decide (t < 0)) t.natAbs e, 0)

/-- The product of two values. -/
def mulVal (a b : Val) : Val × Flags :=
  match a, b with
  | .nan _, _ => (.nan false, 0)
  | _, .nan _ => (.nan false, 0)
  | .inf x, .inf y => (.inf (x != y), 0)
  | .inf x, .fin y m _ => if m = 0 then (.nan false, fInvalid) else (.inf (x != y), 0)
  | .fin x m _, .inf y => if m = 0 then (.nan false, fInvalid) else (.inf (x != y), 0)
  | .fin na ma ea, .fin nb mb eb => (.fin (na != nb) (ma * mb) (ea + eb), 0)

/-- invalid for a signalling operand (R173). -/
def snanFlag (vs : List Val) : Flags := flagIf (vs.any Val.isSnan) fInvalid

/-- round_f32 of a result and all its flags. -/
def finishF (v : Val) (mode : BitVec 2) (f : Flags) : Lane × Flags :=
  let (r, g) := v.toF mode
  (r, f ||| g)

def addF (a b : Lane) (mode : BitVec 2) : Lane × Flags :=
  let (v, f) := addVal (valF a) (valF b) mode
  finishF v mode (f ||| snanFlag [valF a, valF b])
def subF (a b : Lane) (mode : BitVec 2) : Lane × Flags :=
  let (v, f) := addVal (valF a) (valF b).neg mode
  finishF v mode (f ||| snanFlag [valF a, valF b])
def mulF (a b : Lane) (mode : BitVec 2) : Lane × Flags :=
  let (v, f) := mulVal (valF a) (valF b)
  finishF v mode (f ||| snanFlag [valF a, valF b])

/-- ±(a × b) ± c with one rounding; a product 0 × ∞ is invalid whatever c is (R173, R185). -/
def fmaF (a b c : Lane) (np nc : Bool) (mode : BitVec 2) : Lane × Flags :=
  let (p, f) := mulVal (valF a) (valF b)
  let p := if np then p.neg else p
  let w := if nc then (valF c).neg else valF c
  let (v, g) := addVal p w mode
  finishF v mode (f ||| g ||| snanFlag [valF a, valF b, valF c])

/-! ## Comparison (R186, R189, R194) -/

/-- The order of non-NaN values, with -0 = +0: whether a < b. -/
def ltVal (a b : Val) : Bool :=
  match a, b with
  | .nan _, _ => false
  | _, .nan _ => false
  | .inf x, .inf y => x && !y
  | .inf x, _ => x
  | _, .inf y => !y
  | .fin na ma ea, .fin nb mb eb => decide (0 < (addExact nb mb eb (!na) ma ea).1)

def eqVal (a b : Val) : Bool := !a.isNan && !b.isNan && !ltVal a b && !ltVal b a

/-- The rank of a lane in the total order of R194, NaN lowest and -0 below +0. -/
def rankF (x : Lane) : Int :=
  if (valF x).isNan then -(2 ^ 33 : Nat)
  else if bit x 31 then -((bits x 0 31 : Nat) : Int) - 1 else bits x 0 31
def rankI (x : Lane) : Int := sextNat x.toNat 32

/-! ## Codebooks (R163-R165) -/

def tableVal (t : List (BitVec 16)) (k : Nat) : Val := valB (t.getD k 0)

/-- |x - y| of finite values, as an integer multiple of a common power of two. -/
def distance (e : Int) (n : Bool) (m : Nat) (ex : Int) (n' : Bool) (m' : Nat) (e' : Int) : Nat :=
  (signed n m * 2 ^ (ex - e).toNat - signed n' m' * 2 ^ (e' - e).toNat).natAbs

/-- Whether entry a is nearer to x than b is; entries are finite. -/
def nearer (x a b : Val) : Bool :=
  match x, a, b with
  | .fin n m e, .fin na ma ea, .fin nb mb eb =>
    let lo := min e (min ea eb)
    decide (distance lo n m e na ma ea < distance lo n m e nb mb eb)
  | .inf neg, a, b => if neg then ltVal a b else ltVal b a
  | _, _, _ => false

/-- c4_encode (R165): the code, with c4nan for a NaN. -/
def c4Encode (x : Val) (t : List (BitVec 16)) : Nat × Flags :=
  if x.isNan then (0, fC4nan)
  else ((List.range 16).foldl (fun b k => if nearer x (tableVal t k) (tableVal t b) then k else b) 0, 0)

/-! ## Integers -/

/-- A finite value rounded to an integer under a mode, and whether that was inexact. -/
def toInt (n : Bool) (m : Nat) (e : Int) (mode : BitVec 2) : Int × Bool :=
  let (k, i) := roundTo m e 0 n mode
  (signed n k, i)

/-- The integer nearest a value under a mode, saturated to a width; NaN gives 0. invalid on NaN or saturation; the last is whether it
was inexact. -/
def valToInt (v : Val) (w : Nat) (mode : BitVec 2) : Int × Flags × Bool :=
  let hi : Int := (2 ^ (w - 1) : Nat) - 1
  let lo : Int := -(2 ^ (w - 1) : Nat)
  match v with
  | .nan _ => (0, fInvalid, false)
  | .inf n => (if n then lo else hi, fInvalid, false)
  | .fin n m e =>
    let (k, i) := toInt n m e mode
    if k < lo ∨ hi < k then (sat k lo hi, fInvalid, false) else (k, 0, i)

def intVal (x : Int) : Val := .fin (decide (x < 0)) x.natAbs 0

/-! ## Conversions between formats (R166) -/

/-- Element width in bits of a format code (R159). -/
def fmtBits (f : Nat) : Nat := match f with | 0 => 4 | 1 => 16 | 2 => 32 | 3 => 8 | 4 => 16 | _ => 32

/-- A format with the table and number of its codebook slot where it is C4. -/
structure Format where
  code  : Nat
  slot  : Nat := 0
  table : List (BitVec 16) := []
  deriving DecidableEq, Repr

/-- The value of an element pattern. -/
def Format.val (f : Format) (x : Nat) : Val :=
  match f.code with
  | 0 => tableVal f.table (x % 16)
  | 1 => valB (BitVec.ofNat 16 x)
  | 2 => valF (BitVec.ofNat 32 x)
  | 3 => intVal (sextNat x 8)
  | 4 => valB (BitVec.ofNat 16 x)
  | _ => intVal (sextNat x 32)

/-- overflow, with its inexact, is the only flag a narrowing conversion sets (R166). -/
def overflowOnly (f : Flags) : Flags := if f &&& fOverflow ≠ 0 then fOverflow ||| fInexact else 0

def isInt (code : Nat) : Bool := code == 3 || code == 5
def isHalf (code : Nat) : Bool := code == 1 || code == 4

/-- The conversion of one element pattern between formats, always RNE (R166). The table has no row from INT8 or INT32 to SCALE; the
model takes the BF16 row, SCALE elements being BF16 patterns (log 60). -/
def convert (a b : Format) (x : Nat) : Nat × Flags :=
  if a.code = b.code ∧ (a.code ≠ 0 ∨ a.slot = b.slot) then (x, 0)
  else if isHalf a.code && isHalf b.code then (x, 0)
  else if a.code = 0 ∧ isHalf b.code then ((a.table.getD (x % 16) 0).toNat, 0)
  else if b.code = 0 then c4Encode (a.val x) b.table
  else if isInt b.code then
    let w := fmtBits b.code
    let (k, f, _) := valToInt (a.val x) w 0
    ((BitVec.ofInt 32 k).toNat % 2 ^ w, f)
  else if b.code = 2 then
    if isHalf a.code then (x % 65536 * 65536, 0)
    else if a.code = 0 then ((a.table.getD (x % 16) 0).toNat * 65536, 0)
    else
      let (r, f) := (a.val x).toF 0
      (r.toNat, overflowOnly f)
  else
    let (r, f) := (a.val x).toB 0
    (r.toNat, overflowOnly f)

/-! ## Roots, powers and logarithms (R175) -/

/-- The integer square root by digits: n bits of result are tried, the highest first. -/
def isqrtFrom : Nat → Nat → Nat → Nat
  | 0, _, r => r
  | n + 1, x, r => let c := r + 2 ^ n; isqrtFrom n x (if c * c ≤ x then c else r)
def isqrt (x : Nat) : Nat := isqrtFrom (x.log2 / 2 + 1) x 0

/-- A positive value known to lie strictly between n · 2^e and (n + 1) · 2^e, or to equal n · 2^e. -/
def roundBetween (mode : BitVec 2) (neg : Bool) (n : Nat) (e : Int) (exact : Bool) : Lane × Flags :=
  if exact then roundF mode neg n e else roundF mode neg (4 * n + 1) (e - 2)

/-- 1/x. -/
def rcpF (x : Lane) (mode : BitVec 2) : Lane × Flags :=
  match valF x with
  | .nan s => (canonNan, flagIf s fInvalid)
  | .inf n => (zeroF n, 0)
  | .fin n 0 _ => (infF n, fDivzero)
  | .fin n m e =>
    let k := m.log2 + 64
    roundBetween mode n (2 ^ k / m) (-e - k) (2 ^ k % m == 0)

/-- 1/√x. -/
def rsqrtF (x : Lane) (mode : BitVec 2) : Lane × Flags :=
  match valF x with
  | .nan s => (canonNan, flagIf s fInvalid)
  | .inf n => if n then (canonNan, fInvalid) else (0, 0)
  | .fin n 0 _ => (infF n, fDivzero)
  | .fin n m e =>
    if n then (canonNan, fInvalid)
    else
      let (m, e) := if e % 2 = 0 then (m, e) else (2 * m, e - 1)
      let k := m.log2 + 64
      let r := isqrt (2 ^ (2 * k) / m)
      roundBetween mode false r (-(e / 2) - k) (r * r * m == 2 ^ (2 * k))

/-! 2^x and log2 x are enclosed between two dyadic numbers at a precision that doubles until both ends round alike. The doubling ends:
for a dyadic d, 2^(f / 2^k) = d, and log2 y = f / 2^k, compare two integers, d^(2^k) or y^(2^k) and a power of two, which differ by at
least one unless the value is itself dyadic, and those operands are told apart first. That bounds the distance to every rounding
boundary by 2^-(24 · 2^81) at the worst, which the precisions below pass (log 6). -/

/-- Doublings of the precision after which no operand is undecided. -/
def doublings : Nat := 90

/-- 2^(f / 2^n) · 2^p from below, where c is 2^(2^-j) · 2^p for the next bit, over n bits, the highest first. Each factor and
each product is short by less than two units. -/
def exp2Frac (p : Nat) : Nat → Nat → Nat → Nat → Nat
  | 0, _, _, acc => acc
  | n + 1, f, c, acc =>
    let acc := if f / 2 ^ n % 2 = 1 then acc * c / 2 ^ p else acc
    exp2Frac p n f (isqrt (c * 2 ^ p)) acc

/-- round_f32 of 2^(i + f / 2^k), f not 0: at most 54 products, so the value lies less than 2^12 units above the bound from below. -/
def exp2Round (mode : BitVec 2) (i : Int) (f k : Nat) : Nat → Nat → Lane × Flags
  | p, n =>
    let lo := exp2Frac p k f (isqrt (2 * 2 ^ (2 * p))) (2 ^ p)
    let a := roundF mode false (2 * lo + 1) (i - p - 1)
    match n with
    | 0 => a
    | n + 1 => if a = roundF mode false (2 * (lo + 2 ^ 12) + 1) (i - p - 1) then a else exp2Round mode i f k (2 * p) n

/-- 2^x for finite x that is no integer. -/
def exp2Inexact (mode : BitVec 2) (n : Bool) (m : Nat) (e : Int) : Lane × Flags :=
  let k := (-e).toNat
  let t := signed n m
  -- beyond these bounds every rounding is the same
  if t < -(256 * 2 ^ k : Nat) then roundF mode false 1 (-400)
  else if (256 * 2 ^ k : Nat) < t then roundF mode false 1 400
  else if m * 2 ^ 30 < 2 ^ k then
    (if n then roundF mode false (2 ^ 40 - 1) (-40) else roundF mode false (2 ^ 40 + 1) (-40))
  else exp2Round mode (t / (2 ^ k : Nat)) (t % (2 ^ k : Nat)).toNat k 192 doublings

def exp2F (x : Lane) (mode : BitVec 2) : Lane × Flags :=
  match valF x with
  | .nan s => (canonNan, flagIf s fInvalid)
  | .inf n => (if n then 0 else infF false, 0)
  | .fin n m e =>
    if m = 0 then (0x3F800000, 0)
    else if 0 ≤ e ∨ m % 2 ^ (-e).toNat = 0 then
      let t := if 0 ≤ e then signed n (m * 2 ^ (min e 10).toNat) else signed n (m / 2 ^ (-e).toNat)
      let t := if t < -1000 then -1000 else if 1000 < t then 1000 else t
      roundF mode false 1 t
    else exp2Inexact mode n m e

/-- Bits of log2 of a number in [1, 2) known to lie between lo and hi, in units of 2^-p, by repeated squaring; none when a bit is
undecided. -/
def log2Bits (p : Nat) : Nat → Nat → Nat → Nat → Option Nat
  | 0, _, _, acc => some acc
  | n + 1, lo, hi, acc =>
    let lo := lo * lo / 2 ^ p
    let hi := hi * hi / 2 ^ p + 1
    let two := 2 * 2 ^ p
    if two ≤ lo then log2Bits p n (lo / 2) (hi / 2 + 1) (2 * acc + 1)
    else if hi < two then log2Bits p n lo hi (2 * acc)
    else none

/-- floor(2^80 · log2 (m / 2^b)) for 2^b < m < 2^(b + 1). -/
def log2Floor (m b : Nat) : Nat → Nat → Nat
  | _, 0 => 0
  | p, n + 1 =>
    let y := m * 2 ^ (p - b)
    match log2Bits p 80 y y 0 with
    | some f => f
    | none => log2Floor m b (2 * p) n

def log2F (x : Lane) (mode : BitVec 2) : Lane × Flags :=
  match valF x with
  | .nan s => (canonNan, flagIf s fInvalid)
  | .inf n => if n then (canonNan, fInvalid) else (infF false, 0)
  | .fin n m e =>
    if m = 0 then (infF true, fDivzero)
    else if n then (canonNan, fInvalid)
    else
      let top := (m.log2 : Int) + e
      if m = 2 ^ m.log2 then
        (if top = 0 then (0, 0) else roundF mode (decide (top < 0)) top.natAbs 0)
      else
        -- log2 x lies strictly between (top · 2^80 + f) / 2^80 and the next multiple
        let t := top * (2 ^ 80 : Nat) + log2Floor m m.log2 192 doublings
        if 0 ≤ t then roundBetween mode false t.toNat (-80) false
        else roundBetween mode true (-t - 1).toNat (-80) false

/-! ## One block of a Vat product (R169) -/

/-- floor(log2 |p|) of a nonzero finite value. -/
def expo (m : Nat) (e : Int) : Int := (m.log2 : Int) + e

/-- Nonzero finite products as (sign, magnitude, exponent). -/
def finParts : List Val → List (Bool × Nat × Int)
  | [] => []
  | .fin n m e :: ps => if m = 0 then finParts ps else (n, m, e) :: finParts ps
  | _ :: ps => finParts ps

/-- trunc(p / q) for q = 2^k. -/
def truncTo (k : Int) (p : Bool × Nat × Int) : Int :=
  signed p.1 (if k ≤ p.2.2 then p.2.1 * 2 ^ (p.2.2 - k).toNat else p.2.1 / 2 ^ (k - p.2.2).toNat)

/-- The block's sum S: none when every product is zero or S is zero, a NaN or infinity, or a multiple of 2^(e - 62). -/
def blockSum (ps : List Val) : Option Val :=
  if ps.any Val.isNan then some (.nan false)
  else
    let pos := ps.any (fun p => p == .inf false)
    let neg := ps.any (fun p => p == .inf true)
    if pos && neg then some (.nan false)
    else if pos then some (.inf false)
    else if neg then some (.inf true)
    else match finParts ps with
      | [] => none
      | p :: rest =>
        let e := rest.foldl (fun x r => max x (expo r.2.1 r.2.2)) (expo p.2.1 p.2.2)
        let q := e - 62
        let t := ((p :: rest).map (truncTo q)).foldl (· + ·) 0
        if t = 0 then none else some (.fin (decide (t < 0)) t.natAbs q)

/-- vat_block(a, x, y, sx, sy). -/
def vatBlock (a : Lane) (xs ys : List Val) (sx sy : Val) : Lane :=
  let v := valF a
  if v.isNan || xs.any Val.isNan || ys.any Val.isNan || sx.isNan || sy.isNan then canonNan
  else match blockSum ((xs.zip ys).map (fun p => (mulVal p.1 p.2).1)) with
    | none => a
    | some t0 =>
      let t := (mulVal (mulVal t0 sx).1 sy).1
      match t with
      | .nan _ => canonNan
      | .inf n => (match v with | .inf k => if k = n then a else canonNan | _ => infF n)
      | .fin _ 0 _ => a
      | .fin n m e => (match v with
        | .fin na ma ea =>
          let (r, q) := addExact na ma ea n m e
          if r = 0 then 0 else (roundF 0 (decide (r < 0)) r.natAbs q).1
        | _ => a)

end Sys2Proof.Machine
end

