-- ==== Sys2Proof/Machine/System.lean ====
section
/-! DEFINITION. Control registers (R127-R135 and the chapters R128 names), TRAP and ERET (R408), template and w registers (R150,
R152), and the harvest register (R238). -/

namespace Sys2Proof.Machine

/-! ## The harvest register (R238) -/

/-- The page of va within an address space: its leaf, whatever that permits, and the state after the walk. -/
def State.findLeaf (s : State) (p : Nat) (asid : BitVec 16) (va : BitVec 64) : State × Option Page :=
  match s.walk p asid va { probe := true } with
  | (s, .ok g) => (s, if g.leaf.isSome then some g else none)
  | (s, .error _) => (s, none)

/-- A handle names the page of va: within the handle's own page when it is VALID, else within the page's size. -/
def Handle.names (h : Handle) (va : BitVec 64) (size : Nat) : Bool :=
  h.state != .invalid && (h.va.toNat / size == va.toNat / size || (h.state == .valid && h.va.toNat / h.size == va.toNat / h.size))

def unitIn (p : Nat) (asid : BitVec 16) (u : Option WorkUnit) : Bool :=
  match u with | some u => u.part == p && u.asid == asid | none => false

/-- Revoke handles and the handles of operations that have not started. -/
def State.revokePages (s : State) (p : Nat) (asid : BitVec 16) (pred : Handle → Bool) : State := s.revokeHandles (unitIn p asid) pred

/-- HARVEST: the written records of the page's frames go into the leaf's d bit and are cleared. Of a 64 MiB leaf, which R230 repeats in 32
entries, this is the entry that the va indexes; R238 names no other (log 32). -/
def State.harvestPage (s : State) (g : Page) : State :=
  let lo := g.frame / 65536
  let hi := lo + g.size / 65536
  match g.leaf with
  | some l =>
    if s.written.any (fun x => decide (lo ≤ x.1 ∧ x.1 < hi)) then
      let s := { s with written := SMap.clear lo hi s.written }
      s.markLeaf l (s.peek64 l ||| 0x400#64)
    else s
  | none => s

/-- REVOKE: the leaf's gen rises, modulo 4,096, in the entry that the va indexes (log 32). -/
def State.bumpGen (s : State) (g : Page) : State :=
  match g.leaf with
  | some l => s.markLeaf l (s.peek64 l + 0x10000000000000#64)
  | none => s

/-- The virtual page and address space of a harvest value. -/
def harvestVa (w : BitVec 64) : BitVec 64 := bits64 (sextNat (bits w 23 41 * 65536) 57)
def harvestAsid (w : BitVec 64) : BitVec 16 := w.extractLsb' 7 16

/-- The handles that a command revokes, those of its page or of its address space, but for a window handle made by NXL (R238, R309). -/
def State.revokeBy (s : State) (p : Nat) (w : BitVec 64) (size : Nat) : State :=
  s.revokePages p (harvestAsid w) (fun h => !h.nxl
    && (if bits w 4 3 = 2 then h.names (harvestVa w) size else h.state != .invalid))

/-- The size of the page of a command: 64 KiB where no leaf stands (log 32). -/
def pageSizeOf (g : Option Page) : Nat := match g with | some g => g.size | none => 65536

/-- The effect of a command on memory and handles, with its result code. -/
def State.harvestEffect (s : State) (p : Nat) (w : BitVec 64) : State × Nat :=
  match bits w 4 3 with
  | 1 => (match s.findLeaf p (harvestAsid w) (harvestVa w) with
    | (s, some g) => (s.harvestPage g, 0)
    | (s, none) => (s, 1))
  | 2 => (match s.findLeaf p (harvestAsid w) (harvestVa w) with
    | (s, some g) => ((s.bumpGen g).revokeBy p w g.size, 0)
    | (s, none) => (s.revokeBy p w 65536, 0))
  | _ => (s.revokeBy p w 0, 0)

/-- A write of harvest for an address space of partition p. With op 0 no command starts, so the result field, which software does not write,
stays; the table would have BAD_OP there (log 59). -/
def State.startHarvest (s : State) (p : Nat) (w : BitVec 64) : State :=
  let keep := w &&& ~~~(0xF#64)
  if bit s.mgmt.harvest 0 then s
  else if bits w 4 3 = 0 then { s with mgmt := { s.mgmt with harvest := keep ||| (s.mgmt.harvest &&& 0xC#64) } }
  else if 3 < bits w 4 3 then { s with mgmt := { s.mgmt with harvest := keep ||| 8#64 } }
  else
    let (s, r) := s.harvestEffect p w
    { s with mgmt := { s.mgmt with harvest := keep ||| BitVec.ofNat 64 (4 * r) ||| 1#64, harvestPart := p } }

/-- Packets, adds and late stores of units of an address space are on their way. A copy whose handle is revoked stops at its window boundary, with
nothing of it on the way (R286). -/
def State.accessesRun (s : State) (p : Nat) (asid : BitVec 16) : Bool :=
  s.clusters.any (fun (x : Nat × Cluster) => unitIn p asid (s.bank (s.activeBank x.1)).unit && !x.2.outstanding.isEmpty)
    || s.banks.any (fun (x : Nat × Bank) => unitIn p asid x.2.unit && !(x.2.fladds.isEmpty && x.2.late.isEmpty))

/-- A revocation completes: the handles it covers that were made since it began go as well (R233). -/
def State.revokeAgain (s : State) (p : Nat) (w : BitVec 64) : State :=
  match bits w 4 3 with
  | 1 => s
  | 2 => (match s.findLeaf p (harvestAsid w) (harvestVa w) with
    | (s, g) => s.revokeBy p w (pageSizeOf g))
  | _ => s.revokeBy p w 0

/-- busy clears once the accesses issued through the revoked handles are complete; HARVEST waits for none. -/
def State.endHarvest (s : State) : State :=
  let w := s.mgmt.harvest
  if bit w 0 && (bits w 4 3 == 1 || !s.accessesRun s.mgmt.harvestPart (harvestAsid w)) then
    let s := s.revokeAgain s.mgmt.harvestPart w
    { s with mgmt := { s.mgmt with harvest := w &&& ~~~(1#64) } }
  else s

/-- Level-2 firmware writes harvest with one operation, for the partition of the focused cluster's unit. -/
def State.harvestOp (s : State) (op : Nat) (w : BitVec 64) : State := if bits w 4 3 = op then s.startHarvest s.partNo w else s

/-- HARVEST (R238). -/
def execHarvest (w : BitVec 64) (s : State) : Host.Outcome State Fault Refusal :=
  .next (s.harvestOp 1 w)

/-- REVOKE (R238). -/
def execRevoke (w : BitVec 64) (s : State) : Host.Outcome State Fault Refusal :=
  .next (s.harvestOp 2 w)

/-- REVOKE_ALL (R238). -/
def execRevokeAll (w : BitVec 64) (s : State) : Host.Outcome State Fault Refusal :=
  .next (s.harvestOp 3 w)

/-- HARVEST_COMMAND_DONE (R238). -/
def execHarvestCommandDone (s : State) : Host.Outcome State Fault Refusal :=
  .next s.endHarvest

/-! ## Core registers with an effect of their own (R226, R248) -/

/-- A half of sp_failed after a write: its low byte, and the bank whose rebuild starts when the write clears its fail bit, which then reads 1
until the rebuild ends. A write that keeps the fail bit and names another bank starts no rebuild of the one it drops: R248 ties a rebuild to
the bit's fall (log 35). -/
def failField (old new : Nat) : Nat × Option Nat :=
  if old / 32 % 2 = 1 ∧ new / 32 % 2 = 0 then (32 + new % 32, some (old % 32)) else (new % 64, none)

/-- A write of sp_failed. A rebuild that still runs ends first (log 35). -/
def Core.writeSpFailed (c : Core) (w : BitVec 64) : Core :=
  let c := c.endRebuild0.endRebuild1
  let v := c.spFailed
  let (b0, r0) := failField (bits v 0 8) (bits w 0 8)
  let (b1, r1) := failField (bits v 8 8) (bits w 8 8)
  { c with spFailed := (v &&& ~~~(0xFFFF#64)) ||| BitVec.ofNat 64 (b0 + 256 * b1), rebuild0 := r0, rebuild1 := r1 }

/-- SP_FAILED_WRITE (R248). -/
def execSpFailedWrite (core : Nat) (w : BitVec 64) (s : State) : Host.Outcome State Fault Refusal :=
  .next (s.setCore core ((s.core core).writeSpFailed w))

/-- SCRATCHPAD_REBUILD_DONE (R248). -/
def execScratchpadRebuildDone (core : Nat) (which : Bool) (s : State) : Host.Outcome State Fault Refusal :=
  .next (
    let c := s.core core
    if which then (if c.rebuild1.isSome then s.setCore core c.endRebuild1 else s)
    else if c.rebuild0.isSome then s.setCore core c.endRebuild0 else s)

/-- A write of vat_idle restarts the idle count. -/
def State.writeVatIdle (s : State) (core : Nat) (w : BitVec 64) : State :=
  s.setVat core { (s.core core).vat with idle := w.extractLsb' 0 32, idleFrom := s.cycles }

/-- VAT_IDLE_WRITE (R226). -/
def execVatIdleWrite (core : Nat) (w : BitVec 64) (s : State) : Host.Outcome State Fault Refusal :=
  .next (s.writeVatIdle core w)

/-! ## Values of the control registers -/

def widthCode (w : Nat) : Nat := match w with | 1 => 0 | 2 => 1 | _ => 2

/-- status (R130). -/
def State.statusReg (s : State) (b : Nat) : BitVec 64 :=
  let bk := s.bank b
  match bk.unit with
  | none => BitVec.ofNat 64 (4 * (b % 2) + bk.level.toNat)
  | some u => BitVec.ofNat 64 ((if u.victim then 2 ^ 18 else 0) + (if s.holdsVat b then 2 ^ 17 else 0)
      + (if bk.latch.isSome then 2 ^ 16 else 0) + u.crec.level * 2 ^ 11 + widthCode bk.width * 2 ^ 9 + u.member * 2 ^ 7
      + widthCode u.width * 2 ^ 5 + (if bk.forked then 16 else 0) + (if u.committed then 8 else 0) + 4 * (b % 2) + bk.level.toNat)

/-- gsync (R133). -/
def State.gsyncReg (s : State) (b : Nat) : BitVec 64 :=
  let waits := (s.unitClusters b).filterMap (fun cl => (s.bank (bankOf b cl)).joined)
  BitVec.ofNat 64 (((List.range 8).map (fun k => if waits.contains k then 2 ^ k else 0)).foldl (· + ·) 0)

/-- tokstat (R132). -/
def State.tokstatReg (s : State) (b : Nat) : BitVec 64 :=
  let c := s.cluster (b / 2)
  let bk := s.bank b
  BitVec.ofNat 64 (c.qS.length * 2 ^ 26 + c.qC.length * 2 ^ 21 + c.qL.length * 2 ^ 16 + bk.tokSC.toNat * 2 ^ 12
    + bk.tokCL.toNat * 2 ^ 8 + bk.tokCS.toNat * 2 ^ 4 + bk.tokLC.toNat)

/-- Number of present units below n, and the mask of 64 from k on. -/
def maskOf (present : Nat → Bool) (k : Nat) : BitVec 64 :=
  BitVec.ofNat 64 (((List.range 64).map (fun i => if present (k + i) then 2 ^ i else 0)).foldl (· + ·) 0)
def countOf (present : Nat → Bool) (n : Nat) : Nat := ((List.range n).filter present).length

def State.islandPresent (s : State) (i : Nat) : Bool := (List.range 12).any (fun k => s.corePresent (i / 4 * 48 + i % 4 * 12 + k))
def State.pcPresent (s : State) (c : Nat) : Bool := decide (c < 512) && !s.fuses.absentPcs.contains c
def State.linkWidth (s : State) (i : Nat) : Nat := (SMap.get 8 s.fuses.linkWidth i).toNat

/-- The capability registers (R23-R28). -/
def State.capReg (s : State) (n : Nat) : BitVec 64 :=
  if n = 0x400 then maskOf s.islandPresent 0 <<< 16 &&& 0xFFFF0000#64 ||| BitVec.ofNat 64 (countOf s.corePresent 192)
  else if 0x401 ≤ n ∧ n ≤ 0x403 then maskOf s.corePresent (64 * (n - 0x401))
  else if n = 0x404 then
    BitVec.ofNat 64 (countOf (fun g => s.groupPcs g != 0) 64 * 1024 + countOf s.pcPresent 512)
  else if n = 0x405 then maskOf (fun g => s.groupPcs g != 0) 0
  else if 0x408 ≤ n ∧ n ≤ 0x40F then maskOf s.pcPresent (64 * (n - 0x408))
  else if n = 0x410 then maskOf (fun i => decide (i < 16) && s.linkWidth i != 0) 0
  else if n = 0x411 then BitVec.ofNat 64 (((List.range 16).map (fun i => s.linkWidth i * 2 ^ (4 * i))).foldl (· + ·) 0)
  else if n = 0x412 then BitVec.ofNat 64 (s.fuses.hostPorts.toNat * 2 ^ 16 + s.fuses.cxlPorts.toNat)
  else if n = 0x413 then 0x100840#64
  else if n = 0x418 then 96
  else if n = 0x41A then 0x3E807D004E2#64
  else 0

/-- g_status as R323 lays it out: the fault fields with the binding's. -/
def Bank.gStatusReg (b : Bank) : BitVec 64 :=
  b.gStatus ||| (match b.binding with | some x => BitVec.ofNat 64 (2 ^ 15 + x.depth % 16) | none => 0)

/-- The value of a control register as the issuing bank reads it. -/
def State.crValue (s : State) (n : Nat) : BitVec 64 :=
  let b := s.cur
  let c := s.curCore
  let x := s.part s.partNo
  if 0x100 ≤ n ∧ n < 0x110 then SMap.get 0 c.tshape (n - 0x100)
  else if 0x120 ≤ n ∧ n < 0x136 then SMap.get 2 c.spfmt (n - 0x120)
  else if 0x400 ≤ n ∧ n < 0x500 then s.capReg n
  else match n with
  | 0x000 => s.statusReg s.ib
  | 0x001 => BitVec.ofNat 64 (s.partNo * 2 ^ 20 + islandOf s.coreNo * 2 ^ 16 + s.coreNo * 2 ^ 8 + s.focus % 4)
  | 0x002 => b.cause
  | 0x003 => b.trapPc
  | 0x004 => b.trapInfo
  | 0x005 => s.tokstatReg s.ib
  | 0x006 => s.leaseReg s.ib
  | 0x007 => zx b.seq
  | 0x008 => zx b.wdone
  | 0x009 => (match b.unit with
    | some u => BitVec.ofNat 64 (u.crec.job * 2 ^ 56 + u.crec.phase * 2 ^ 48 + u.crec.graph * 2 ^ 32 + u.crec.launch)
    | none => 0)
  | 0x00B => s.now
  | 0x00C => zx b.fpflags
  | 0x00D => SMap.get 0 b.lc 0
  | 0x00E => SMap.get 0 b.lc 1
  | 0x00F => BitVec.ofNat 64 ((if (SMap.get {} b.loops 1).armed then 2 else 0) + (if (SMap.get {} b.loops 0).armed then 1 else 0))
  | 0x010 => s.gsyncReg s.ib
  | 0x011 => BitVec.ofNat 64 (b.spawnNext.toNat * 2 ^ 32 + b.spawnCount.toNat)
  | 0x110 => BitVec.ofNat 64 ((if c.vat.asleep then 2 ^ 63 else 0) + c.vat.idle.toNat)
  | 0x111 => zx c.tabValid
  | 0x112 => maskOf (fun k => SMap.get false c.flags k) 0
  | 0x113 => BitVec.ofNat 64 (((List.range 8).map (fun k => (SMap.get [] c.q k).length * 2 ^ (4 * k))).foldl (· + ·) 0)
  | 0x114 => (match c.vat.lease with
    | some l => BitVec.ofNat 64 (widthCode l.width * 16 + 8 + l.bank * 4 + l.cluster % 4)
    | none => zx c.vat.lastHolder)
  | 0x115 => c.spFailed
  | 0x200 => zx b.axEpsAbs
  | 0x201 => zx b.axEpsRel
  | 0x202 => zx b.axLr
  | 0x203 => zx b.axBatch
  | 0x204 => zx b.axWindow
  | 0x205 => zx b.axSample
  | 0x206 => zx b.axLimit
  | 0x207 => if b.axEnable then 1 else 0
  | 0x240 => zx b.gLimit
  | 0x241 => b.gStatusReg
  | 0x260 => zx x.kvBlockTokens
  | 0x261 => zx x.leaseDefault
  | 0x262 => if x.nameTest then 1 else 0
  | 0x263 => x.salt
  | 0x264 => zx x.collideCount
  | 0x300 => zx x.agePeriod
  | 0x301 => zx x.ageLimit
  | 0x302 => zx x.affinityWait
  | 0x303 => zx x.preemptMargin
  | 0x304 => zx x.commitBudget
  | 0x305 => zx x.schedPops
  | 0x306 => zx x.schedPreempts
  | 0x307 => zx x.schedReserves
  | 0x310 => zx x.bwHbm
  | 0x311 => zx x.bwCxl
  | 0x312 => zx x.bwYareno
  | 0x313 => zx x.bwHost
  | 0x314 => if x.shareEnable then 1 else 0
  | 0x318 => zx x.scopeMode
  | 0x319 => zx x.scopeCount
  | 0x320 => x.handler
  | 0x321 => BitVec.ofNat 64 s.partNo
  | 0x800 => s.mgmt.harvest
  | 0x801 => BitVec.ofNat 64 (s.mgmt.ueTotal.toNat * 2 ^ 48 + s.mgmt.ceTotal.toNat * 2 ^ 32 + s.mgmt.lastSource.toNat * 2 ^ 24
      + (if s.mgmt.rasOverflow then 256 else 0) + s.mgmt.rasHead.toNat)
  | 0x802 => BitVec.ofNat 64 (s.mgmt.ueFound.toNat * 2 ^ 48 + s.mgmt.ceFound.toNat * 2 ^ 32 + s.mgmt.regionUs.toNat * 2 ^ 8
      + (if s.mgmt.scrubEnable then 1 else 0))
  | _ => 0

/-- The level a register needs (R5, R127-R129). -/
def crLevel (n : Nat) : BitVec 2 :=
  if 0x800 ≤ n then 2
  else if (2 ≤ n ∧ n ≤ 4) ∨ n = 0x115 ∨ (0x260 ≤ n ∧ n ≤ 0x263) ∨ (0x300 ≤ n ∧ n ≤ 0x3FF) then 1
  else 0

/-! ## Writes of the control registers -/

def State.setCurPart (s : State) (f : Partition → Partition) : State := s.setPart s.partNo (f (s.part s.partNo))

/-- Write a control register field by field (R5, R135); a register that is read-only ignores the write. -/
def State.crSet (s : State) (n : Nat) (v : BitVec 64) : State :=
  let b := s.cur
  let c := s.curCore
  let m := s.mgmt
  if 0x100 ≤ n ∧ n < 0x110 then s.setCurCore { c with tshape := SMap.set 0 c.tshape (n - 0x100) (v &&& 0xF7FFFF#64) }
  else if 0x120 ≤ n ∧ n < 0x136 then s.setCurCore { c with spfmt := SMap.set 2 c.spfmt (n - 0x120) (v &&& 0xF7#64) }
  else match n with
  | 0x002 => s.setCur { b with cause := v }
  | 0x003 => s.setCur { b with trapPc := v }
  | 0x004 => s.setCur { b with trapInfo := v }
  | 0x00C => s.setCur { b with fpflags := v.extractLsb' 0 6 }
  | 0x00D => s.setCur { b with lc := SMap.set 0 b.lc 0 v }
  | 0x00E => s.setCur { b with lc := SMap.set 0 b.lc 1 v }
  | 0x011 => s.setCur { b with spawnNext := v.extractLsb' 32 32, spawnCount := v.extractLsb' 0 32 }
  | 0x110 => s.writeVatIdle s.coreNo v
  | 0x115 => s.setCurCore (c.writeSpFailed v)
  | 0x200 => s.setCur { b with axEpsAbs := v.extractLsb' 0 32 }
  | 0x201 => s.setCur { b with axEpsRel := v.extractLsb' 0 32 }
  | 0x202 => s.setCur { b with axLr := v.extractLsb' 0 32 }
  | 0x203 => s.setCur { b with axBatch := v.extractLsb' 0 9 }
  | 0x204 => s.setCur { b with axWindow := v.extractLsb' 0 13 }
  | 0x205 => s.setCur { b with axSample := v.extractLsb' 0 4 }
  | 0x206 => s.setCur { b with axLimit := v.extractLsb' 0 8 }
  | 0x207 => s.setCur { b with axEnable := bit v 0 }
  | 0x240 => s.setCur { b with gLimit := v.extractLsb' 0 4 }
  | 0x260 => s.setCurPart (fun x => { x with kvBlockTokens := v.extractLsb' 0 2 })
  | 0x261 => s.setCurPart (fun x => { x with leaseDefault := v.extractLsb' 0 32 })
  | 0x262 => s.setCurPart (fun x => { x with nameTest := bit v 0 })
  | 0x263 => s.setCurPart (fun x => { x with salt := v })
  | 0x300 => s.setCurPart (fun x => { x with agePeriod := v.extractLsb' 0 24 })
  | 0x301 => s.setCurPart (fun x => { x with ageLimit := v.extractLsb' 0 5 })
  | 0x302 => s.setCurPart (fun x => { x with affinityWait := v.extractLsb' 0 20 })
  | 0x303 => s.setCurPart (fun x => { x with preemptMargin := v.extractLsb' 0 5 })
  | 0x304 => s.setCurPart (fun x => { x with commitBudget := v.extractLsb' 0 32 })
  | 0x314 => s.setCurPart (fun x => { x with shareEnable := bit v 0 })
  | 0x318 => if v.extractLsb' 0 2 = 3#2 then s else s.setCurPart (fun x => { x with scopeMode := v.extractLsb' 0 2 })
  | 0x320 => s.setCurPart (fun x => { x with handler := v })
  | 0x800 => s.startHarvest s.partNo v
  | 0x801 => { s with mgmt := { m with rasOverflow := m.rasOverflow && !bit v 8 } }
  | 0x802 => { s with mgmt := { m with regionUs := v.extractLsb' 8 24, scrubEnable := bit v 0 } }
  | _ => s

/-- Registers of which a CRR or CRW waits for the engines (R135, R184, R323): a CRW of any core register but a tshape does. -/
def crReadWaits (n : Nat) : Bool := n == 0x00C || n == 0x241
def crWriteWaits (n : Nat) : Bool := n == 0x00C || n == 0x241 || (0x110 ≤ n && n < 0x116) || (0x120 ≤ n && n < 0x136)

/-- An incomplete wide operation of the bank stands in the way of a write of tshape n (R106, R135). -/
def State.tileBusy (s : State) (n : Nat) : Bool :=
  let c := s.cluster s.focus
  (c.qL ++ c.qC ++ c.qS).any (fun e => e.writes.contains (200 + n) || ((e.queued || e.occupying) && e.reads.contains (200 + n)))

/-- CRR (R135). -/
def execCrr (d : BitVec 6) (c : BitVec 12) (s : State) : Host.Outcome State Fault Refusal :=
  s.finish (.crr d c) (s.withRegs [d] (s.needLevel (.crr d c) (crLevel c.toNat) (
    if crReadWaits c.toNat && !s.enginesIdle then .wait s else s.result d (s.crValue c.toNat))))

/-- CRW (R135). -/
def execCrw (a : BitVec 6) (c : BitVec 12) (s : State) : Host.Outcome State Fault Refusal :=
  s.finish (.crw a c) (s.withRegs [a] (s.needLevel (.crw a c) (crLevel c.toNat) (
    if crWriteWaits c.toNat && !s.enginesIdle then .wait s
    else if 0x100 ≤ c.toNat && c.toNat < 0x110 && s.tileBusy (c.toNat - 0x100) then .wait s
    else .ok (s.crSet c.toNat (s.reg a)))))

/-! ## TRAP and ERET (R408) -/

/-- A firmware service returns a value in s1 to the following issue unit, with no end test (R408, R434). -/
def State.serve (s : State) (v : BitVec 64) : Res := .jump (s.setReg 1 v) (s.cur.pc + s.cur.unitBytes)

/-- TRAP 0xFF0: the firmware runs a harvest command of the partition to its end and returns the register's value. It begins once the
accesses the command waits for are complete, so that it then runs in one piece. What it returns for an asid that is not the
partition's the spec does not say. -/
def State.harvestService (s : State) : Res :=
  let w := s.reg 1
  match s.asidValid s.partNo (harvestAsid w) with
  | (s, false) => { s with freeNo := s.freeNo + 1 }.serve (Config.harvestRefused s.freeNo)
  | (s, true) =>
    if bit s.mgmt.harvest 0 then .wait s
    else if (bits w 4 3 = 2 ∨ bits w 4 3 = 3) ∧ s.accessesRun s.partNo (harvestAsid w) then .wait s
    else
      let s := (s.startHarvest s.partNo w).endHarvest
      s.serve s.mgmt.harvest

/-- TRAP 0xFF1: the answer to a page request. -/
def State.answerService (s : State) : Res := (s.pageAnswer s.partNo (s.reg 1)).serve 0

/-- TRAP by its code. -/
def State.trapCode (s : State) (i : Instr) (c : BitVec 12) : Res :=
  if c.toNat < 0xF00 then .trap s { precise cTRAP 0 with tcode := c }
  else s.needLevel i 1 (s.withRegs [1] (
    if c = 0xFF0 then s.harvestService
    else if c = 0xFF1 then s.answerService
    else s.serve (BitVec.allOnes 64)))

/-- TRAP (R408). -/
def execTrap (c : BitVec 12) (s : State) : Host.Outcome State Fault Refusal :=
  s.finish (.trap c) (s.trapCode (.trap c) c)

/-- TRAP_HARVEST_SERVICE (R238). -/
def execTrapHarvestService (s : State) : Host.Outcome State Fault Refusal :=
  s.finish .trapHarvestService (s.trapCode .trapHarvestService 0xFF0)

/-- TRAP_PAGE_ANSWER_SERVICE (R411). -/
def execTrapPageAnswerService (s : State) : Host.Outcome State Fault Refusal :=
  s.finish .trapPageAnswerService (s.trapCode .trapPageAnswerService 0xFF1)

/-- ERET (R408). A released C queue's head is judged (R213), and a closed session with nothing left ends its lease (R212). -/
def execEret (s : State) : Host.Outcome State Fault Refusal :=
  s.finish .eret (s.needLevel .eret 1 (
    if bits s.cur.cause 0 8 = 0 then .trap s (precise cILLEGAL (wordInfo .eret))
    else .keep (((s.returnFrom s.ib).judge s.focus).checkLease s.coreNo)))

/-! ## Templates and w registers (R150, R152) -/

/-- The n slots from slot k on that bytes fill. -/
def slotsOf (k n : Nat) (bs : List Byte) : List (Nat × BitVec 128) :=
  (List.range n).map (fun i => (k + i, BitVec.ofNat 128 (ofBytes ((bs.drop (16 * i)).take 16))))

/-- TMPL (R150). -/
def execTmpl (t : BitVec 6) (a : BitVec 6) (c : BitVec 6) (s : State) : Host.Outcome State Fault Refusal :=
  s.finish (.tmpl t a c) (s.withRegs [a] (
    let o := s.reg a
    let n := c.toNat + 1
    if o.toNat % 16 ≠ 0 then .trap s (precise cALIGN o)
    else if spadBytes < o.toNat + 16 * n then .trap s (precise cHANDLE_BOUNDS o)
    else match s.curCore.spRead o.toNat (16 * n) with
      | (k, none) => .trap (s.setCurCore k) (precise cPOISON o)
      | (k, some bs) =>
        let s := s.setCurCore k
        .ok (s.setCur { s.cur with tmpl := setCells resetTemplate s.cur.tmpl (slotsOf t.toNat n bs) })))

/-- WMOV (R152). -/
def execWmov (w : BitVec 3) (a : BitVec 6) (s : State) : Host.Outcome State Fault Refusal :=
  s.finish (.wmov w a) (s.withRegs [a] (.ok (s.setCur { s.cur with w := SMap.set 0 s.cur.w w.toNat (s.reg a) })))

/-- WGET (R152). -/
def execWget (d : BitVec 6) (w : BitVec 3) (s : State) : Host.Outcome State Fault Refusal :=
  s.finish (.wget d w) (s.withRegs [d] (s.result d (s.cur.getW w.toNat)))

end Sys2Proof.Machine
end

