-- ==== Sys2Proof/Machine/Operands.lean ====
section
/-! DEFINITION. The operand forms of wide operations: the fields of a template and the limits each wide opcode puts on them and on
the values read at issue (R101-R106, R179-R182, R205, R219-R225, R252-R253, R280-R282, R303, R324). -/

namespace Sys2Proof.Machine

/-- What a template needs at issue: the scoreboarded registers it reads and writes (numbered as in QEntry), the scalar and w registers
it reads by template field, the tiles and scratchpad banks whose shape and format it reads, its completion token register. -/
structure Need where
  reads : List Nat := []
  writes : List Nat := []
  sregs : List (Nat × Nat) := []
  wregs : List (Nat × Nat) := []
  tiles : List Nat := []
  banks : List Nat := []
  token : Option Nat := none
  deriving DecidableEq, Repr

def Need.join (a b : Need) : Need :=
  { reads := a.reads ++ b.reads, writes := a.writes ++ b.writes, sregs := a.sregs ++ b.sregs, wregs := a.wregs ++ b.wregs,
    tiles := a.tiles ++ b.tiles, banks := a.banks ++ b.banks, token := a.token.orElse (fun _ => b.token) }

/-- Every part must be within its limits. -/
def allOf : List (Option Need) → Option Need
  | [] => some {}
  | none :: _ => none
  | some a :: rest => match allOf rest with | some b => some (a.join b) | none => none

def must (b : Bool) : Option Need := if b then some {} else none
def needZero (f : BitVec 16) : Option Need := must (f == 0)

/-! ## Fields (R177-R181, R219) -/

/-- An operand field (R180) of one of the kinds 0 vector, 1 scalar, 2 wide argument, 3 immediate. -/
def operand (k : Nat) (f : BitVec 16) (kinds : List Nat) : Option Need :=
  if !kinds.contains (bits f 14 2) then none
  else match bits f 14 2 with
    | 0 => if bits f 5 9 = 0 then some { reads := [bits f 0 5] } else none
    | 1 => if bits f 6 8 = 0 then some { sregs := [(k, bits f 0 6)] } else none
    | 2 => if bits f 3 11 = 0 then some { wregs := [(k, bits f 0 3)] } else none
    | _ => some {}

def anyKind : List Nat := [0, 1, 2, 3]
def uniformKind : List Nat := [1, 2, 3]

def predNo (n : Nat) : List Nat := if n = 0 then [] else [100 + n]

/-- A predicate field. -/
def predField (f : BitVec 16) : Option Need := if bits f 3 13 = 0 then some { reads := predNo (bits f 0 3) } else none

/-- A destination field (R181) of the kinds allowed. -/
def destField (f : BitVec 16) (v p q : Bool) : Option Need :=
  match bits f 14 2 with
  | 0 => if v && bits f 5 9 == 0 then some { writes := [bits f 0 5] } else none
  | 1 => if p && bits f 3 11 == 0 && bits f 0 3 != 0 then some { writes := [100 + bits f 0 3] } else none
  | 2 => if q && bits f 3 11 == 0 then some {} else none
  | _ => none

/-- F5: the governing predicate and, where allowed, zeroing; a merging destination is a source as well (R177). -/
def governed (t : BitVec 128) (zeroing : Bool) : Option Need :=
  let f := fieldOf t 5
  if bits f 4 12 ≠ 0 ∨ (bit f 3 ∧ !zeroing) then none
  else
    let pg := bits f 0 3
    let dest := match destField (fieldOf t 1) true true false with | some n => n.writes | none => []
    some { reads := predNo pg ++ (if zeroing && !bit f 3 && pg != 0 then dest else []) }

def tileField (f : BitVec 16) : Option Need := if bits f 4 12 = 0 then some { tiles := [bits f 0 4] } else none
def addrField (f : BitVec 16) : Option Need := must (f.toNat < 45056)
def byteField (f : BitVec 16) : Option Need := must (bits f 8 8 == 0)

/-! ## The vector template (R179, R185-R201) -/

def vectorLimits (wop : Nat) (t : BitVec 128) : Option Need :=
  let f := fieldOf t
  let sel := bits (f 0) 2 4
  let mode := bits (f 0) 0 2
  let exact := must (mode == 0)
  let base := [must (bits (f 0) 6 2 == 0), needZero (f 7)]
  let dv := destField (f 1) true false false
  let dp := destField (f 1) false true false
  let dvq := destField (f 1) true false true
  let a := operand 2 (f 2) anyKind
  let b := operand 3 (f 3) anyKind
  let z3 := needZero (f 3)
  let z4 := needZero (f 4)
  let z6 := needZero (f 6)
  let gz := governed t true
  let g := governed t false
  let parts := match wop with
    | 0x40 => [must (sel == 0), dv, a, b, z4, gz, z6]
    | 0x41 => [must (sel == 0), dv, a, b, z4, gz, z6]
    | 0x42 => [must (sel == 0), dv, a, b, z4, gz, z6]
    | 0x43 => [must (sel < 4), dv, a, b, operand 4 (f 4) anyKind, gz, z6]
    | 0x44 => [must (sel == 0), exact, dv, a, b, z4, gz, z6]
    | 0x45 => [must (sel == 0), exact, dv, a, b, z4, gz, z6]
    | 0x46 => [must (sel < 3), exact, dv, a, b, z4, gz, z6]
    | 0x47 => [must (sel == 0), dv, a, z3, z4, gz, z6]
    | 0x48 => [must (sel == 0), dv, a, z3, z4, gz, z6]
    | 0x49 => [must (sel == 0), dv, a, z3, z4, gz, z6]
    | 0x4A => [must (sel == 0), dv, a, z3, z4, gz, z6]
    | 0x4B =>
      if sel < 4 then [dv, a, z3, z4, gz, z6]
      else [must (sel < 6), exact, dv, a, z3, z4, gz, must (bits (f 6) 4 12 == 0), some { reads := [400 + bits (f 6) 0 4] }]
    | 0x4C => [must (sel < 8), exact, dp, a, b, z4, gz, z6]
    | 0x4D => [must (sel < 2), exact, dv, a, b, predField (f 4), gz, z6]
    | 0x50 => [must (sel < 2), exact, dv, a, b, z4, gz, z6]
    | 0x51 => [must (sel < 2), exact, dv, a, b, z4, gz, z6]
    | 0x52 => [must (sel < 2), exact, dv, a, b, z4, gz, z6]
    | 0x59 => [must (sel < 2), exact, dv, a, b, z4, gz, z6]
    | 0x5A => [must (sel < 2), exact, dv, a, b, z4, gz, z6]
    | 0x5B => [must (sel < 6), exact, dp, a, b, z4, gz, z6]
    | 0x60 => [must (sel < 2), exact, dv, a, if bits (f 2) 14 2 = 0 then b else z3, z4, gz, z6]
    | 0x61 => [must (sel == 0), exact, dv, operand 2 (f 2) uniformKind, operand 3 (f 3) uniformKind, z4, gz, z6]
    | 0x62 => [must (sel < 2), exact, dv, operand 2 (f 2) [0], b, operand 4 (f 4) [0], gz, z6]
    | 0x63 => [must (sel < 2), must (sel == 0 || mode == 0), dvq, a, z3, z4, g, z6]
    | 0x64 => [must (sel < 2), exact, dvq, a, z3, z4, g, z6]
    | 0x65 =>
      let x := if bits (f 1) 14 2 = 0 then
          [must (bits (f 6) 5 11 == 0 && bits (f 6) 0 5 != bits (f 1) 0 5), some { writes := [bits (f 6) 0 5] }]
        else [z6]
      [must (sel < 2), exact, dvq, a, b, z4, g] ++ x
    | 0x66 =>
      let k := sextNat (f 4).toNat 14
      [must (sel < 2), exact, dv, operand 2 (f 2) [0], b, operand 4 (f 4) [3], must (decide (1 ≤ k) && decide (k ≤ 64)), g,
        must (bits (f 6) 5 11 == 0 && bits (f 6) 0 5 != bits (f 1) 0 5), some { writes := [bits (f 6) 0 5] }]
    | 0x67 => [must (sel == 0), exact, dvq, predField (f 2), z3, z4, g, z6]
    | 0x68 => [must (sel < 2), exact, destField (f 1) false false true, operand 2 (f 2) [0], b, z4, needZero (f 5), z6]
    | 0x69 => [must (sel < 2), must (sel == 0 || mode == 0), dv, a, z3, z4, gz, z6]
    | 0x6A => [exact, dp, predField (f 2), predField (f 3), z4, needZero (f 5), z6]
    | _ => if 0x53 ≤ wop ∧ wop ≤ 0x58 then [must (sel == 0), exact, dv, a, b, z4, gz, z6] else [none]
  allOf (base ++ parts)

/-! ## Tiles (R204-R206, R222-R225) -/

/-- A tshape as rows, columns, format code and table slot. -/
structure TileShape where
  rows : Nat
  cols : Nat
  fmt  : Nat
  slot : Nat
  deriving DecidableEq, Repr

def TileShape.of (x : BitVec 64) : TileShape :=
  { rows := bits x 0 8 + 1, cols := bits x 8 8 + 1, fmt := bits x 16 3, slot := bits x 20 4 }

/-- Well-formed (R205). -/
def TileShape.ok (x : TileShape) : Bool := decide (x.fmt ≤ 4) && decide (x.rows * x.cols * fmtBits x.fmt ≤ 262144)
def TileShape.bytes (x : TileShape) : Nat := ceilDiv (x.rows * x.cols * fmtBits x.fmt) 8

def State.shape (s : State) (core n : Nat) : TileShape := TileShape.of (SMap.get 0 (s.core core).tshape n)

/-- The codebook slot a C4 side reads. -/
def tabOf (fmt slot : Nat) : List Nat := if fmt = 0 then [400 + slot] else []

/-- A tile field with its shape checked, read or written. -/
def State.tile (s : State) (f : BitVec 16) (write : Bool) : Option Need :=
  let x := s.shape (s.focus / 4) (bits f 0 4)
  if bits f 4 12 = 0 ∧ x.ok then
    some { tiles := [bits f 0 4], reads := if write then [] else [200 + bits f 0 4], writes := if write then [200 + bits f 0 4] else [] }
  else none

/-- The issuing cluster's own accumulator (R207). -/
def State.ownAcc (s : State) (f : BitVec 16) (read write : Bool) : Option Need :=
  let n := 300 + s.focus % 4
  if f.toNat = s.focus % 4 then some { reads := if read then [n] else [], writes := if write then [n] else [] } else none

/-- A rectangle of an accumulator. -/
def rectOk (r c : BitVec 16) (rows cols : Nat) : Option Need :=
  must (bits r 8 8 == 0 && bits c 8 8 == 0 && decide (r.toNat + rows ≤ 256) && decide (c.toNat + cols ≤ 256))

/-- The operand shapes of MMA and MMAS (R222). -/
def State.mmaLimits (s : State) (t : BitVec 128) (scaled : Bool) : Option Need :=
  let f := fieldOf t
  let core := s.focus / 4
  let A := s.shape core (bits (f 2) 0 4)
  let B := s.shape core (bits (f 3) 0 4)
  let sa := s.shape core (bits (f 4) 0 4)
  let sb := s.shape core (bits (f 5) 0 4)
  let r := if A.fmt = 0 then 256 else 128
  let nb := ceilDiv A.cols 32
  allOf ([must (bits (f 0) 4 4 == 0 && bits (f 0) 0 2 == 0), s.ownAcc (f 1) true true, s.tile (f 2) false, s.tile (f 3) false,
    must (A.fmt == B.fmt && decide (A.fmt ≤ 1) && A.rows == r && B.cols == r && B.rows == A.cols
      && (A.fmt == 1 || bits (f 0) 2 2 == 0)),
    some { reads := tabOf A.fmt A.slot ++ tabOf B.fmt B.slot }, needZero (f 6), needZero (f 7)]
    ++ (if scaled then
      [s.tile (f 4) false, s.tile (f 5) false,
        must (sa.fmt == 4 && sb.fmt == 4 && sa.rows == r && sa.cols == nb && sb.rows == nb && sb.cols == r)]
      else [needZero (f 4), needZero (f 5)]))

/-! ## The other wide opcodes -/

/-- A copy's fields (R280); kind bits in F0 are CPYR's. -/
def copyLimits (t : BitVec 128) (resume : Bool) : Option Need :=
  let f := fieldOf t
  allOf [must (bits (f 0) 6 2 == 0 && bits (f 0) 0 4 == 0 && (resume || bits (f 0) 4 2 == 0)),
    must (bits (f 1) 6 10 == 0 && bits (f 1) 0 6 != 0), some { token := some (bits (f 1) 0 6) },
    must (bits (f 2) 11 5 == 0 && decide (bits (f 2) 4 3 ≤ 5) && bits (f 2) 0 4 != 0),
    operand 3 (f 3) uniformKind, must (bits (f 5) 12 4 == 0),
    must (bits (f 7) 3 5 == 0 && bits (f 7) 14 2 == 0 && (resume || bits (f 7) 8 6 == 0)),
    some { wregs := [(7, bits (f 7) 0 3)], sregs := if resume then [(8, bits (f 7) 8 6)] else [],
           reads := tabOf (bits (f 2) 4 3) (bits (f 2) 7 4) }]

/-- A node copy's fields (R303). -/
def nodeCopyLimits (t : BitVec 128) (fetch : Bool) : Option Need :=
  let f := fieldOf t
  allOf [must (bits (f 0) 1 7 == 0 && (fetch || !bit (f 0) 0)),
    must (bits (f 1) 6 10 == 0 && bits (f 1) 0 6 != 0), some { token := some (bits (f 1) 0 6) },
    must (bits (f 2) 4 12 == 0), operand 3 (f 3) uniformKind, must (bits (f 5) 8 8 == 0), must (bits (f 7) 12 4 == 0)]

/-- The limits of every wide opcode that do not depend on values read at issue; none: TEMPLATE. -/
def State.limits (s : State) (t : BitVec 128) : Option Need :=
  let f := fieldOf t
  let wop := wopOf t
  let noMod := must (bits (f 0) 0 8 == 0)
  let off := operand 3 (f 3) uniformKind
  let z4 := needZero (f 4)
  let z5 := needZero (f 5)
  let z67 := [needZero (f 6), needZero (f 7)]
  match wop with
  | 0x00 => allOf ([noMod, s.tile (f 1) true, addrField (f 2), off, z4, z5] ++ z67)
  | 0x01 => allOf ([noMod, destField (f 1) true false false, addrField (f 2), off, z4, governed t true] ++ z67)
  | 0x02 => allOf ([noMod, destField (f 1) true false false, addrField (f 2), operand 3 (f 3) [0], z4, governed t true] ++ z67)
  | 0x03 => allOf ([noMod, addrField (f 1), addrField (f 2), must (decide (1 ≤ (f 3).toNat) && decide ((f 3).toNat ≤ 8192)), z4, z5]
      ++ z67)
  | 0x04 => copyLimits t false
  | 0x05 => copyLimits t false
  | 0x06 => nodeCopyLimits t true
  | 0x07 => copyLimits t true
  | 0x08 => allOf ([noMod, must (bits (f 1) 4 12 == 0), addrField (f 2), must (bits (f 3) 2 14 == 0),
      some { writes := [400 + bits (f 1) 0 4] }, z4, z5] ++ z67)
  | 0x09 => allOf ([noMod, addrField (f 1), must (decide (128 * (f 1).toNat + 576 ≤ spadBytes)), some { writes := [500] },
      needZero (f 2), needZero (f 3), z4, z5] ++ z67)
  | 0x80 => s.mmaLimits t false
  | 0x81 => s.mmaLimits t true
  | 0x82 => allOf ([must (bits (f 0) 5 3 == 0 && bits (f 0) 0 2 == 0), s.ownAcc (f 1) false true, needZero (f 2), needZero (f 3), z4, z5]
      ++ z67)
  | 0x83 =>
    let d := s.shape (s.focus / 4) (bits (f 1) 0 4)
    allOf ([noMod, s.tile (f 1) true, s.ownAcc (f 2) true false, rectOk (f 3) (f 4) d.rows d.cols, some { reads := tabOf d.fmt d.slot }, z5]
      ++ z67)
  | 0x84 =>
    let d := s.shape (s.focus / 4) (bits (f 1) 0 4)
    let e := s.shape (s.focus / 4) (bits (f 2) 0 4)
    allOf ([noMod, s.tile (f 1) true, s.tile (f 2) false, must (d.fmt == e.fmt && d.rows == e.cols && d.cols == e.rows),
      needZero (f 3), z4, z5] ++ z67)
  | 0x85 =>
    let d := s.shape (s.focus / 4) (bits (f 1) 0 4)
    let e := s.shape (s.focus / 4) (bits (f 2) 0 4)
    allOf ([noMod, s.tile (f 1) true, s.tile (f 2) false,
      must (d.fmt == 0 && e.fmt == 0 && d.rows == e.rows && d.cols == e.cols),
      some { reads := [400 + d.slot, 400 + e.slot] }, needZero (f 3), z4, z5] ++ z67)
  | 0x86 =>
    let e := s.shape (s.focus / 4) (bits (f 2) 0 4)
    allOf ([noMod, s.ownAcc (f 1) false true, s.tile (f 2) false, rectOk (f 3) (f 4) e.rows e.cols, some { reads := tabOf e.fmt e.slot }, z5]
      ++ z67)
  | 0x90 => allOf ([must (bits (f 0) 5 3 == 0 && !bit (f 0) 1), addrField (f 1), addrField (f 2), some { reads := [500] }, z5] ++ z67)
  | 0x91 => allOf ([must (bits (f 0) 5 3 == 0 && bits (f 0) 0 2 == 0), destField (f 1) true false false, operand 2 (f 2) uniformKind,
      needZero (f 3), z4, governed t true] ++ z67)
  | 0xC0 => allOf ([noMod, addrField (f 1), s.tile (f 2) false, off, z4, z5] ++ z67)
  | 0xC1 => allOf ([noMod, addrField (f 1), operand 2 (f 2) [0], off, z4, governed t false] ++ z67)
  | 0xC2 => allOf ([noMod, addrField (f 1), operand 2 (f 2) [0], operand 3 (f 3) [0], z4, governed t false] ++ z67)
  | 0xC3 => copyLimits t false
  | 0xC4 => copyLimits t false
  | 0xC5 => allOf ([noMod, addrField (f 1), s.ownAcc (f 2) true false,
      rectOk (f 3) (f 4) (bits (f 5) 0 8 + 1) (bits (f 5) 8 8 + 1)] ++ z67)
  | 0xC6 => nodeCopyLimits t false
  | _ => if 0x40 ≤ wop ∧ wop < 0x6B then vectorLimits wop t else none

/-! ## Limits on values read at issue -/

/-- The INT32 value of an operand field, as unsigned 32 bits, with the values read at issue (R180). -/
def uniformVal (f : BitVec 16) (vals : SMap (BitVec 64)) (k : Nat) : BitVec 32 :=
  if bits f 14 2 = 3 then (f.extractLsb' 0 14).signExtend 32 else (SMap.get 0 vals k).extractLsb' 0 32

/-- The raw format register of a data bank, and its format code and slot. -/
def Core.bankFmt (c : Core) (b : Nat) : BitVec 64 := SMap.get 2 c.spfmt b
def fmtCode (x : BitVec 64) : Nat := bits x 0 3
def fmtSlot (x : BitVec 64) : Nat := bits x 4 4

/-- n elements of a bank's format from a start, within that one bank and aligned (R253); the bank and its codebook slot follow. -/
def Core.inBank (c : Core) (start : Int) (n : Nat) (aligned : Bool) : Option Need :=
  if start < 0 then none
  else
    let o := start.toNat
    let b := o / bankBytes
    let x := c.bankFmt b
    let w := fmtBits (fmtCode x)
    if o < spadBytes ∧ fmtCode x < 6 ∧ 0 < n ∧ (o + ceilDiv (n * w) 8 - 1) / bankBytes = b ∧ (!aligned ∨ w = 4 ∨ o % (w / 8) = 0) then
      some { banks := [b], reads := tabOf (fmtCode x) (fmtSlot x) }
    else none

/-- The stream of a copy: rows x elems elements from an h0 offset, its banks alike (R282). -/
def Core.stream (c : Core) (start n elems : Nat) : Option Need :=
  let b := start / bankBytes
  let x := c.bankFmt b
  let bytes := ceilDiv (n * fmtBits (fmtCode x)) 8
  let banks := (List.range ((start + bytes - 1) / bankBytes - b + 1)).map (· + b)
  if start + bytes ≤ spadBytes ∧ fmtCode x < 6 ∧ banks.all (fun k => c.bankFmt k == x) ∧ (fmtCode x ≠ 0 ∨ elems % 2 = 0) then
    some { banks := banks, reads := tabOf (fmtCode x) (fmtSlot x) }
  else none

/-- L, H, D and format code of a shape word (R293). -/
def shapeL (w : BitVec 32) : Nat := bits w 0 8 + 1
def shapeH (w : BitVec 32) : Nat := bits w 8 8 + 1
def shapeD (w : BitVec 32) : Nat := bits w 16 10
def shapeFmt (w : BitVec 32) : Nat := bits w 28 3

/-- The shape checks of a node copy; an empty or stale register skips them (R303). A root skips them too, and with D unknown only the start
of the stream and the format of its first bank are checked, which the rule leaves open (log 38). -/
def State.nodeLimits (s : State) (t : BitVec 128) (node : NodeReg) : Option Need :=
  let f := fieldOf t
  let heads := bits (f 6) 8 8 + 1
  let tokens := bits (f 7) 0 12 + 1
  let start := 128 * (f 4).toNat
  let code := fmtCode (s.curCore.bankFmt (start / bankBytes))
  match s.liveNode node with
  | some (_, n) =>
    allOf [s.curCore.stream start (heads * tokens * shapeD n.shape) (shapeD n.shape), must (code != 0),
      must (decide (bits (f 5) 0 8 < shapeL n.shape) && decide (bits (f 6) 0 8 + heads ≤ shapeH n.shape))]
  | none => must (decide (start < spadBytes) && code != 0 && decide (code < 6))

/-- The limits that need values read at issue; none: TEMPLATE. -/
def State.valueLimits (s : State) (t : BitVec 128) (vals : SMap (BitVec 64)) (node : NodeReg) : Option Need :=
  let f := fieldOf t
  let c := s.curCore
  let off : Int := (uniformVal (f 3) vals 3).toInt
  let at' := fun k => (128 * (f k).toNat : Int)
  let tileBytes := fun k => (s.shape (s.focus / 4) (bits (f k) 0 4)).bytes
  let copy := fun (gather : Bool) =>
    let rows := bits (f 5) 0 12 + 1
    let elems := (f 6).toNat + 1
    let list := ((SMap.get 0 vals 7).extractLsb' 32 32).toNat
    allOf [c.stream (128 * (f 4).toNat) (rows * elems) elems, must (bits (f 2) 4 3 != 0 || elems % 2 == 0),
      must (!gather || (decide (list + 4 * rows ≤ spadBytes) && list % 4 == 0))]
  match wopOf t with
  | 0x00 => must (decide (0 ≤ at' 2 + off) && decide ((at' 2 + off) % 128 = 0) && decide (at' 2 + off + tileBytes 1 ≤ spadBytes))
  | 0xC0 => must (decide (0 ≤ at' 1 + off) && decide ((at' 1 + off) % 128 = 0) && decide (at' 1 + off + tileBytes 2 ≤ spadBytes))
  | 0x01 => c.inBank (at' 2 + off) 64 true
  | 0xC1 => c.inBank (at' 1 + off) 64 true
  | 0x02 => c.inBank (at' 2) 1 false
  | 0xC2 => c.inBank (at' 1) 1 false
  | 0x03 =>
    let n := 64 * (f 3).toNat
    let size := fun k => ceilDiv (n * fmtBits (fmtCode (c.bankFmt (128 * (f k).toNat / bankBytes)))) 8
    allOf [c.inBank (at' 1) n false, c.inBank (at' 2) n false,
      must (decide (at' 1 + size 1 ≤ at' 2) || decide (at' 2 + size 2 ≤ at' 1))]
  | 0x04 => copy false
  | 0x05 => copy true
  | 0x07 => copy (bits (f 0) 4 2 == 1 || bits (f 0) 4 2 == 3)
  | 0xC3 => copy false
  | 0xC4 => copy true
  | 0xC5 =>
    let n := (bits (f 5) 0 8 + 1) * (bits (f 5) 8 8 + 1)
    allOf [c.inBank (at' 1) n false, must (fmtCode (c.bankFmt (128 * (f 1).toNat / bankBytes)) != 0 || n % 2 == 0)]
  | 0x90 =>
    let ok := fun k => let x := fmtCode (c.bankFmt (128 * (f k).toNat / bankBytes)); x == 1 || x == 2
    allOf [must (ok 1 && ok 2), some { banks := [128 * (f 1).toNat / bankBytes, 128 * (f 2).toNat / bankBytes] }]
  | 0x91 =>
    let b := (uniformVal (f 2) vals 2).toInt
    must (decide (0 ≤ b) && decide (b ≤ 8128))
  | 0x06 => s.nodeLimits t node
  | 0xC6 => s.nodeLimits t node
  | _ => some {}

end Sys2Proof.Machine
end

