-- ==== Sys2Proof/Machine/Wide.lean ====
section
/-! DEFINITION. Issuing wide operations (R103, R104): PATCH_WORD and WIR, and running the operation at the head of a queue. -/

namespace Sys2Proof.Machine

/-! ## Issue (R103, R104) -/

/-- Pair keys with the values of registers. -/
def readAll (rd : Nat → BitVec 64) (rs : List (Nat × Nat)) : SMap (BitVec 64) :=
  rs.foldl (fun m r => SMap.set 0 m r.1 (rd r.2)) []

/-- A token bit toward a neighbour that the queue lacks (R107). -/
def badToken (q : QueueName) (tok : BitVec 4) : Bool :=
  match q with
  | .L => bit tok 3 || bit tok 0
  | .C => false
  | .S => bit tok 2 || bit tok 1

/-- The copies that take a handle, and those that take a node. -/
def isCopy (wop : Nat) : Bool := [0x04, 0x05, 0x07, 0xC3, 0xC4].contains wop
def isNodeCopy (wop : Nat) : Bool := wop == 0x06 || wop == 0xC6

/-- The entry of an issued operation: what it reads is read now. -/
def State.entryOf (s : State) (t : BitVec 128) (tok : BitVec 4) (word : BitVec 32) (n : Need) (vals : SMap (BitVec 64)) : QEntry :=
  let b := s.cur
  { tmpl := t, tok := tok, seq := b.seq, word := word, vals := SMap.set 0 vals 9 (if b.level = 0 then 1 else 0),
    shapes := readAll (fun k => SMap.get 0 s.curCore.tshape k) (n.tiles.map (fun k => (k, k))),
    fmts := readAll s.curCore.bankFmt (n.banks.map (fun k => (k, k))),
    handle := if isCopy (wopOf t) then b.handle (bits (fieldOf t 2) 0 4) else {},
    node := if isNodeCopy (wopOf t) then b.getN (bits (fieldOf t 2) 0 3) else .empty, limit := b.gLimit,
    reads := n.reads, writes := n.writes, dests := match n.token with | some r => [r] | none => [] }

/-- The values read at issue, by the field that names their register. -/
def Bank.issueVals (b : Bank) (n : Need) : SMap (BitVec 64) :=
  n.wregs.foldl (fun m r => SMap.set 0 m r.1 (b.getW r.2)) (readAll (fun k => b.reg (BitVec.ofNat 6 k)) n.sregs)

/-- The procedure of R103 for an amended template. -/
def State.issueTemplate (s : State) (i : Instr) (t : BitVec 128) (tok : BitVec 4) : Res :=
  let q := routeOf (wopOf t)
  match s.limits t with
  | none => .trap s (precise cTEMPLATE (wordInfo i))
  | some n => s.withRegs (n.sregs.map (fun r => BitVec.ofNat 6 r.2)) (
    let b := s.cur
    let vals := b.issueVals n
    match s.valueLimits t vals (b.getN (bits (fieldOf t 2) 0 3)) with
    | none => .trap s (precise cTEMPLATE (wordInfo i))
    | some m =>
      if badToken q tok then .trap s (precise cTOKEN (wordInfo i))
      else s.afterStores (
        let c := s.cluster s.focus
        if 16 ≤ (c.queue q).length then .wait s
        else
          let n := n.join m
          let e := s.entryOf t tok ((wordInfo i).extractLsb' 0 32) n vals
          let s := s.setQueue s.focus q (c.queue q ++ [e])
          let b := match n.token with | some r => b.markPending (BitVec.ofNat 6 r) | none => b
          let s := s.setCur { b with seq := b.seq + 1 }
          .ok (if q = .C then s.judge s.focus else s)))

/-- The amended copy of a slot (R103). -/
def amend (t : BitVec 128) (m : BitVec 1) (f : BitVec 3) (v : BitVec 16) : BitVec 128 :=
  if f = 0 then t
  else if m = 0 then setField t f.toNat v
  else setField t f.toNat (fieldOf t f.toNat + v)

/-- PATCH_WORD (R103). -/
def execPatchWord (t : BitVec 6) (m : BitVec 1) (f : BitVec 3) (k : BitVec 4) (v : BitVec 16) (s : State) : Host.Outcome State Fault Refusal :=
  s.finish (.patchWord t m f k v) (s.issueTemplate (.patchWord t m f k v) (amend (s.cur.slot t.toNat) m f v) k)

/-- WIR (R151). -/
def execWir (t : BitVec 6) (a : BitVec 6) (m : BitVec 1) (f : BitVec 3) (k : BitVec 4) (s : State) : Host.Outcome State Fault Refusal :=
  s.finish (.wir t a m f k) (s.withRegs [a] (s.issueTemplate (.wir t a m f k) (amend (s.cur.slot t.toNat) m f ((s.reg a).extractLsb' 0 16)) k))

/-! ## Running the operation at the head of a queue -/

/-- How an operation's execution ends: it does not move yet, it moves on, its writes are due at completion, or it faults with its
datum. -/
inductive Ran where
  | hold
  /-- it does not start yet, but something on its behalf does -/
  | busy (s : State)
  /-- a copy under way stands before its next window, with the flags of those it has moved -/
  | more (s : State) (e : QEntry) (window : Nat) (flags : Flags)
  | done (s : State) (ws : List WideWrite) (uses : List Nat := []) (seen : Option GmvView := none)
  | fail (s : State) (ws : List WideWrite) (code : Code) (info : BitVec 64)
  deriving DecidableEq, Repr

/-- An operation that starts takes its tokens; a copy under way goes on. -/
def State.enterPhase (s : State) (cl : Nat) (q : QueueName) (e : QEntry) (ph : OpPhase) : State :=
  if e.queued then s.startOp cl q e ph else s.moveOp cl q e ph

/-- Run the operation of a cluster's queue that moves next if it has this wide opcode: it reads its operands now, and its writes are
made at its completion (R108), a copy's window by window. What a fault lets stand is written at once. -/
def State.runHead (s : State) (cl wop : Nat) (f : State → QEntry → Ran) : State :=
  let q := routeOf wop
  match s.mover cl q with
  | none => s
  | some e =>
    if wopOf e.tmpl ≠ wop then s
    else match f s e with
      | .hold => s
      | .busy s => s
      | .more s e' k fl => s.enterPhase cl q { e' with phase := e.phase } (.copying k fl)
      | .done s ws _ seen => s.enterPhase cl q { e with seen := seen } (.executed ws)
      | .fail s ws c info =>
        let s := s.enterPhase cl q e (.executed [])
        (s.applyWrites (s.activeBank cl) ws).failOp cl q e c info

/-- The tables of valid codebook slots; none for a slot that holds no table (R164). -/
def Core.table? (c : Core) (n : Nat) : Option (List (BitVec 16)) :=
  if bit c.tabValid n then some ((List.range 16).map (fun k => SMap.get 0 c.tab (16 * n + k))) else none

/-- A format with its table; none when it is C4 through an invalid slot. -/
def Core.format? (c : Core) (code slot : Nat) : Option Format :=
  if code = 0 then
    match c.table? slot with
    | some t => some { code := 0, slot := slot, table := t }
    | none => none
  else some { code := code }

/-- The format of a bank as the entry read it at issue. -/
def QEntry.bankFmt (e : QEntry) (b : Nat) : BitVec 64 := SMap.get 0 e.fmts b

end Sys2Proof.Machine
end

