-- ==== Sys2Proof/Machine/Vector.lean ====
section
/-! DEFINITION. The vector instructions (R177-R202): lanes, predicates, and the operations 0x40-0x6A. -/

namespace Sys2Proof.Machine

/-! ## Lanes and operands (R177-R180) -/

/-- The pattern a value operand's NaN has under the suffix .f, and after FP32 selection (R178). -/
def canon (fp : Bool) (x : Lane) : Lane := if fp && (valF x).isNan then canonNan else x

/-- The 64 lane values of operand field k; an immediate decodes as FP32 or INT32 (R180). -/
def QEntry.lanes (e : QEntry) (b : Bank) (k : Nat) (fp : Bool) : List Lane :=
  let f := fieldOf e.tmpl k
  match bits f 14 2 with
  | 0 => b.getV (bits f 0 5)
  | 3 => List.replicate 64 (if fp then f.extractLsb' 0 14 ++ 0#18 else (f.extractLsb' 0 14).signExtend 32)
  | _ => List.replicate 64 (uniformVal f e.vals k)

/-- A value operand in lane 0. -/
def QEntry.lane0 (e : QEntry) (b : Bank) (k : Nat) : BitVec 32 := (e.lanes b k false).getD 0 0

def QEntry.sel (e : QEntry) : Nat := bits (fieldOf e.tmpl 0) 2 4
def QEntry.mode (e : QEntry) : BitVec 2 := (fieldOf e.tmpl 0).extractLsb' 0 2
/-- The governing predicate. -/
def QEntry.pg (e : QEntry) (b : Bank) : BitVec 64 := b.getP (bits (fieldOf e.tmpl 5) 0 3)
def QEntry.zeroing (e : QEntry) : Bool := bit (fieldOf e.tmpl 5) 3
def QEntry.pred (e : QEntry) (b : Bank) (k : Nat) : BitVec 64 := b.getP (bits (fieldOf e.tmpl k) 0 3)

/-- Lanes of a destination under the governing predicate: an inactive lane keeps its value or becomes 0 (R177). -/
def mergeLanes (pg : BitVec 64) (zeroing : Bool) (old new : List Lane) : List Lane :=
  (List.range 64).map (fun l => if bit pg l then new.getD l 0 else if zeroing then 0 else old.getD l 0)

/-- The flags of the active lanes (R174). -/
def activeFlags (pg : BitVec 64) (fs : List Flags) : Flags :=
  (List.range 64).foldl (fun a l => if bit pg l then a ||| fs.getD l 0 else a) 0

/-- Writes of a lane-wise result to the vector destination, with the flags of its active lanes. -/
def QEntry.laneWrites (e : QEntry) (b : Bank) (rs : List (Lane × Flags)) : List WideWrite :=
  let d := bits (fieldOf e.tmpl 1) 0 5
  let pg := e.pg b
  [.vreg d (mergeLanes pg e.zeroing (b.getV d) (rs.map (·.1))), .flags (activeFlags pg (rs.map (·.2)))]

/-- Writes of a lane-wise condition to the predicate destination. -/
def QEntry.predWrites (e : QEntry) (b : Bank) (rs : List (Bool × Flags)) : List WideWrite :=
  let d := bits (fieldOf e.tmpl 1) 0 3
  let pg := e.pg b
  let old := if e.zeroing then 0 else b.getP d
  let new := BitVec.ofNat 64 (((List.range 64).map (fun l => if (rs.getD l (false, 0)).1 then 2 ^ l else 0)).foldl (· + ·) 0)
  [.preg d ((new &&& pg) ||| (old &&& ~~~pg)), .flags (activeFlags pg (rs.map (·.2)))]

/-- Run a vector operation that meets no fault. -/
def State.vectorOp (s : State) (cl wop : Nat) (f : QEntry → Bank → List WideWrite) : State :=
  s.runHead cl wop (fun s e => .done s (f e (s.bank (s.activeBank cl))))

/-- A two-source FP32 operation. -/
def State.vecF2 (s : State) (cl wop : Nat) (f : QEntry → Lane → Lane → Lane × Flags) : State :=
  s.vectorOp cl wop (fun e b => e.laneWrites b (List.zipWith (f e) (e.lanes b 2 true) (e.lanes b 3 true)))

/-- A one-source FP32 operation. -/
def State.vecF1 (s : State) (cl wop : Nat) (f : BitVec 2 → Lane → Lane × Flags) : State :=
  s.vectorOp cl wop (fun e b => e.laneWrites b ((e.lanes b 2 true).map (f e.mode)))

/-- A two-source INT32 operation; the argument is F0[2]. -/
def State.vecI2 (s : State) (cl wop : Nat) (f : Bool → Lane → Lane → Lane) : State :=
  s.vectorOp cl wop (fun e b =>
    e.laneWrites b (List.zipWith (fun x y => (f (e.sel % 2 == 1) x y, 0)) (e.lanes b 2 false) (e.lanes b 3 false)))

/-! ## Floating-point lane operations (R185-R190) -/

/-- VADDF (R185). -/
def execVaddf (cl : Nat) (s : State) : Host.Outcome State Fault Refusal :=
  .next (s.vecF2 cl 0x40 (fun e a b => addF a b e.mode))

/-- VSUBF (R185). -/
def execVsubf (cl : Nat) (s : State) : Host.Outcome State Fault Refusal :=
  .next (s.vecF2 cl 0x41 (fun e a b => subF a b e.mode))

/-- VMULF (R185). -/
def execVmulf (cl : Nat) (s : State) : Host.Outcome State Fault Refusal :=
  .next (s.vecF2 cl 0x42 (fun e a b => mulF a b e.mode))

/-- Lanes of three sources. -/
def zip3 {α : Type} (f : Lane → Lane → Lane → α) (a b c : List Lane) : List α :=
  List.zipWith (fun (p : Lane × Lane) z => f p.1 p.2 z) (a.zip b) c

/-- VFMAF (R185). -/
def execVfmaf (cl : Nat) (s : State) : Host.Outcome State Fault Refusal :=
  .next (s.vectorOp cl 0x43 (fun e b => e.laneWrites b
    (zip3 (fun x y z => fmaF x y z (e.sel % 2 == 1) (e.sel / 2 == 1) e.mode) (e.lanes b 2 true) (e.lanes b 3 true) (e.lanes b 4 true))))

/-- The smaller or larger of two FP32 values with -0 below +0; a quiet NaN gives way to the other (R186). -/
def minmaxF (larger : Bool) (a b : Lane) : Lane × Flags :=
  let f := snanFlag [valF a, valF b]
  if (valF a).isNan && (valF b).isNan then (canonNan, f)
  else if (valF a).isNan then (b, f)
  else if (valF b).isNan then (a, f)
  else (if larger then (if rankF a < rankF b then b else a) else (if rankF b < rankF a then b else a), f)

/-- VMINF (R186). -/
def execVminf (cl : Nat) (s : State) : Host.Outcome State Fault Refusal :=
  .next (s.vecF2 cl 0x44 (fun _ a b => minmaxF false a b))

/-- VMAXF (R186). -/
def execVmaxf (cl : Nat) (s : State) : Host.Outcome State Fault Refusal :=
  .next (s.vecF2 cl 0x45 (fun _ a b => minmaxF true a b))

/-- a with another sign; a NaN in a gives canon_nan (R186). -/
def signF (sel : Nat) (a b : Lane) : Lane :=
  let g := match sel with | 0 => bit b 31 | 1 => !bit b 31 | _ => bit a 31 != bit b 31
  if (valF a).isNan then canonNan else (a &&& 0x7FFFFFFF) ||| (if g then 0x80000000 else 0)

/-- VSGNF (R186). -/
def execVsgnf (cl : Nat) (s : State) : Host.Outcome State Fault Refusal :=
  .next (s.vecF2 cl 0x46 (fun e a b => (signF e.sel a b, 0)))

/-- VEXP2 (R187). -/
def execVexp2 (cl : Nat) (s : State) : Host.Outcome State Fault Refusal :=
  .next (s.vecF1 cl 0x47 (fun m x => exp2F x m))

/-- VLOG2 (R187). -/
def execVlog2 (cl : Nat) (s : State) : Host.Outcome State Fault Refusal :=
  .next (s.vecF1 cl 0x48 (fun m x => log2F x m))

/-- VRCP (R187). -/
def execVrcp (cl : Nat) (s : State) : Host.Outcome State Fault Refusal :=
  .next (s.vecF1 cl 0x49 (fun m x => rcpF x m))

/-- VRSQRT (R187). -/
def execVrsqrt (cl : Nat) (s : State) : Host.Outcome State Fault Refusal :=
  .next (s.vecF1 cl 0x4A (fun m x => rsqrtF x m))

/-- The kinds of VCVT (R188). -/
def cvt (kind : Nat) (m : BitVec 2) (t : List (BitVec 16)) (x : Lane) : Lane × Flags :=
  let v := valF x
  match kind with
  | 0 =>
    let (k, f, i) := valToInt v 32 m
    (BitVec.ofInt 32 k, f ||| flagIf i fInexact)
  | 1 =>
    let (r, f) := (intVal (sextNat x.toNat 32)).toF m
    (r, f)
  | 2 =>
    let (r, f) := v.toB m
    (r ++ 0#16, f ||| flagIf v.isSnan fInvalid)
  | 3 => (match v with
    | .nan g => (canonNan, flagIf g fInvalid)
    | .inf _ => (x, 0)
    | .fin n k e =>
      if k = 0 then (x, 0)
      else
        let (r, _) := roundTo k e 0 n m
        (if r = 0 then zeroF n else (roundF 0 n r 0).1, 0))
  | 4 =>
    let (c, f) := c4Encode v t
    (BitVec.ofNat 32 c, f)
  | _ => (t.getD (bits x 0 4) 0 ++ 0#16, 0)

/-- VCVT (R188). R188 does not class .c2f, whose source is a code, as an INT32 or an FP32 operation: an immediate source decodes as INT32
there, so that it names a code (log 61). -/
def execVcvt (cl : Nat) (s : State) : Host.Outcome State Fault Refusal :=
  .next (s.runHead cl 0x4B (fun s e =>
    let b := s.bank (s.activeBank cl)
    let slot := bits (fieldOf e.tmpl 6) 0 4
    let run := fun t => Ran.done s (e.laneWrites b ((e.lanes b 2 (e.sel != 1 && e.sel != 5)).map (cvt e.sel e.mode t)))
    if e.sel < 4 then run []
    else match (s.core (cl / 4)).table? slot with
      | some t => run t
      | none => .fail s [] cTABLE (BitVec.ofNat 64 slot)))

/-- The conditions of VCMPF (R189). -/
def cmpF (c : Nat) (a b : Lane) : Bool × Flags :=
  let x := valF a
  let y := valF b
  let any := x.isNan || y.isNan
  let lt := ltVal x y
  let gt := ltVal y x
  let eq := eqVal x y
  let r := match c with
    | 0 => eq | 1 => !eq | 2 => lt | 3 => lt || eq | 4 => gt | 5 => gt || eq | 6 => any | _ => !any
  (r, if 2 ≤ c ∧ c ≤ 5 then flagIf any fInvalid else snanFlag [x, y])

/-- VCMPF (R189). -/
def execVcmpf (cl : Nat) (s : State) : Host.Outcome State Fault Refusal :=
  .next (s.vectorOp cl 0x4C (fun e b => e.predWrites b (List.zipWith (cmpF e.sel) (e.lanes b 2 true) (e.lanes b 3 true))))

/-- VSEL (R190). -/
def execVsel (cl : Nat) (s : State) : Host.Outcome State Fault Refusal :=
  .next (s.vectorOp cl 0x4D (fun e b =>
    let fp := e.sel == 1
    let ps := e.pred b 4
    let x := e.lanes b 2 fp
    let y := e.lanes b 3 fp
    e.laneWrites b ((List.range 64).map (fun l => (canon fp (if bit ps l then x.getD l 0 else y.getD l 0), 0)))))

/-! ## Integer lane operations (R191, R192) -/

def satI (x : Int) : Lane := BitVec.ofInt 32 (sat x (-(2 ^ 31 : Nat)) ((2 ^ 31 : Nat) - 1))

/-- VADDI (R191). -/
def execVaddi (cl : Nat) (s : State) : Host.Outcome State Fault Refusal :=
  .next (s.vecI2 cl 0x50 (fun f a b => if f then satI (a.toInt + b.toInt) else a + b))

/-- VSUBI (R191). -/
def execVsubi (cl : Nat) (s : State) : Host.Outcome State Fault Refusal :=
  .next (s.vecI2 cl 0x51 (fun f a b => if f then satI (a.toInt - b.toInt) else a - b))

/-- VMULI (R191). -/
def execVmuli (cl : Nat) (s : State) : Host.Outcome State Fault Refusal :=
  .next (s.vecI2 cl 0x52 (fun f a b => if f then satI (a.toInt * b.toInt) else a * b))

/-- VAND (R191). -/
def execVand (cl : Nat) (s : State) : Host.Outcome State Fault Refusal :=
  .next (s.vecI2 cl 0x53 (fun _ a b => a &&& b))

/-- VOR (R191). -/
def execVor (cl : Nat) (s : State) : Host.Outcome State Fault Refusal :=
  .next (s.vecI2 cl 0x54 (fun _ a b => a ||| b))

/-- VXOR (R191). -/
def execVxor (cl : Nat) (s : State) : Host.Outcome State Fault Refusal :=
  .next (s.vecI2 cl 0x55 (fun _ a b => a ^^^ b))

/-- VSHL (R191). -/
def execVshl (cl : Nat) (s : State) : Host.Outcome State Fault Refusal :=
  .next (s.vecI2 cl 0x56 (fun _ a b => a <<< bits b 0 5))

/-- VSHR (R191). -/
def execVshr (cl : Nat) (s : State) : Host.Outcome State Fault Refusal :=
  .next (s.vecI2 cl 0x57 (fun _ a b => a >>> bits b 0 5))

/-- VSAR (R191). -/
def execVsar (cl : Nat) (s : State) : Host.Outcome State Fault Refusal :=
  .next (s.vecI2 cl 0x58 (fun _ a b => a.sshiftRight (bits b 0 5)))

/-- VMINI (R191). -/
def execVmini (cl : Nat) (s : State) : Host.Outcome State Fault Refusal :=
  .next (s.vecI2 cl 0x59 (fun u a b => if u then (if b.ult a then b else a) else if b.slt a then b else a))

/-- VMAXI (R191). -/
def execVmaxi (cl : Nat) (s : State) : Host.Outcome State Fault Refusal :=
  .next (s.vecI2 cl 0x5A (fun u a b => if u then (if a.ult b then b else a) else if a.slt b then b else a))

/-- The conditions of VCMPI (R192). -/
def cmpI (c : Nat) (a b : Lane) : Bool :=
  match c with
  | 0 => a == b | 1 => a != b | 2 => a.slt b | 3 => !a.slt b | 4 => a.ult b | _ => !a.ult b

/-- VCMPI (R192). -/
def execVcmpi (cl : Nat) (s : State) : Host.Outcome State Fault Refusal :=
  .next (s.vectorOp cl 0x5B (fun e b =>
    e.predWrites b (List.zipWith (fun x y => (cmpI e.sel x y, 0)) (e.lanes b 2 false) (e.lanes b 3 false))))

/-! ## Moving lanes (R193) -/

/-- VBCAST (R193). -/
def execVbcast (cl : Nat) (s : State) : Host.Outcome State Fault Refusal :=
  .next (s.vectorOp cl 0x60 (fun e b =>
    let fp := e.sel == 1
    let x := e.lanes b 2 fp
    let v := if bits (fieldOf e.tmpl 2) 14 2 = 0 then x.getD (bits (e.lane0 b 3) 0 6) 0 else x.getD 0 0
    e.laneWrites b (List.replicate 64 (canon fp v, 0))))

/-- VIOTA (R193). -/
def execViota (cl : Nat) (s : State) : Host.Outcome State Fault Refusal :=
  .next (s.vectorOp cl 0x61 (fun e b =>
    let base := e.lane0 b 2
    let stepBy := e.lane0 b 3
    e.laneWrites b ((List.range 64).map (fun l => (base + BitVec.ofNat 32 l * stepBy, 0)))))

/-- VPERM (R193). -/
def execVperm (cl : Nat) (s : State) : Host.Outcome State Fault Refusal :=
  .next (s.vectorOp cl 0x62 (fun e b =>
    let fp := e.sel == 1
    let x := e.lanes b 2 false
    let z := e.lanes b 4 false
    e.laneWrites b ((e.lanes b 3 false).map (fun i =>
      (canon fp (if bit i 6 then z.getD (bits i 0 6) 0 else x.getD (bits i 0 6) 0), 0)))))

/-! ## Reductions and selections (R194-R199) -/

/-- Writes of one 32-bit value to every lane of a vector destination, or as one entry of a queue register. -/
def QEntry.spread (e : QEntry) (v : Lane) : List WideWrite :=
  let f := fieldOf e.tmpl 1
  if bits f 14 2 = 0 then [.vreg (bits f 0 5) (List.replicate 64 v)] else [.push (bits f 0 3) (zx v)]

/-- One level of the tree: neighbours are added, an absent one lets the other through. -/
def treeLevel (add : Lane → Lane → Lane × Flags) : List (Option Lane) → List (Option Lane) × Flags
  | x :: y :: rest =>
    let (ns, f) := treeLevel add rest
    (match x, y with
      | some a, some b =>
        let (r, g) := add a b
        (some r :: ns, f ||| g)
      | some a, none => (some a :: ns, f)
      | none, y => (y :: ns, f))
  | _ => ([], 0)

/-- The sum over a fixed tree of n levels (R195). -/
def treeSum (add : Lane → Lane → Lane × Flags) : Nat → List (Option Lane) → Option Lane × Flags
  | 0, xs => (xs.headD none, 0)
  | n + 1, xs =>
    let (ys, f) := treeLevel add xs
    let (r, g) := treeSum add n ys
    (r, f ||| g)

/-- Lanes that are active, with their numbers. -/
def activeLanes (pg : BitVec 64) (xs : List Lane) : List (Nat × Lane) :=
  ((List.range 64).zip xs).filter (fun p => bit pg p.1)

/-- invalid when an active lane signals and the lanes are FP32 (R178). -/
def laneSnan (int : Bool) (pg : BitVec 64) (xs : List Lane) : Flags :=
  if int then 0 else snanFlag ((activeLanes pg xs).map (fun p => valF p.2))

/-- VREDSUM (R195). -/
def execVredsum (cl : Nat) (s : State) : Host.Outcome State Fault Refusal :=
  .next (s.vectorOp cl 0x63 (fun e b =>
    let int := e.sel == 1
    let pg := e.pg b
    let xs := e.lanes b 2 (!int)
    let add := fun x y => if int then (x + y, 0) else addF x y e.mode
    let (r, f) := treeSum add 6 ((List.range 64).map (fun l => if bit pg l then some (xs.getD l 0) else none))
    let v := match r with | some x => canon (!int) x | none => 0
    e.spread v ++ [.flags (f ||| laneSnan int pg xs)]))

/-- The rank of a lane (R194). -/
def rank (int : Bool) (x : Lane) : Int := if int then rankI x else rankF x

/-- Insert by descending rank; among equals the earlier lane stays first. -/
def insertRank (int : Bool) (p : Nat × Lane) : List (Nat × Lane) → List (Nat × Lane)
  | [] => [p]
  | q :: qs => if rank int q.2 < rank int p.2 then p :: q :: qs else q :: insertRank int p qs

/-- Active lanes by descending rank, equal rank by ascending lane. -/
def byRank (int : Bool) (xs : List (Nat × Lane)) : List (Nat × Lane) := xs.foldl (fun a p => insertRank int p a) []

/-- What stands for no lane. -/
def noLane (int : Bool) : Lane := if int then 0x80000000 else 0xFF800000

/-- The index of lane l by operand F3 (R196). -/
def QEntry.indexOf (e : QEntry) (b : Bank) (l : Nat) : Lane :=
  if bits (fieldOf e.tmpl 3) 14 2 = 0 then (e.lanes b 3 false).getD l 0 else e.lane0 b 3 + BitVec.ofNat 32 l

/-- VREDMAX (R196). -/
def execVredmax (cl : Nat) (s : State) : Host.Outcome State Fault Refusal :=
  .next (s.vectorOp cl 0x64 (fun e b =>
    let int := e.sel == 1
    let xs := e.lanes b 2 (!int)
    let v := match byRank int (activeLanes (e.pg b) xs) with | p :: _ => canon (!int) p.2 | [] => noLane int
    e.spread v ++ [.flags (laneSnan int (e.pg b) xs)]))

/-- VARGMAX (R196). -/
def execVargmax (cl : Nat) (s : State) : Host.Outcome State Fault Refusal :=
  .next (s.vectorOp cl 0x65 (fun e b =>
    let int := e.sel == 1
    let xs := e.lanes b 2 (!int)
    let (v, i) := match byRank int (activeLanes (e.pg b) xs) with
      | p :: _ => (canon (!int) p.2, e.indexOf b p.1)
      | [] => (noLane int, 0xFFFFFFFF)
    let f := fieldOf e.tmpl 1
    (if bits f 14 2 = 0 then
      [WideWrite.vreg (bits f 0 5) (List.replicate 64 v), .vreg (bits (fieldOf e.tmpl 6) 0 5) (List.replicate 64 i)]
    else [.push (bits f 0 3) (i ++ v)]) ++ [.flags (laneSnan int (e.pg b) xs)]))

/-- VTOPK (R197). -/
def execVtopk (cl : Nat) (s : State) : Host.Outcome State Fault Refusal :=
  .next (s.vectorOp cl 0x66 (fun e b =>
    let int := e.sel == 1
    let xs := e.lanes b 2 (!int)
    let k := bits (fieldOf e.tmpl 4) 0 14
    let cand := (byRank int (activeLanes (e.pg b) xs)).take k
    let pick := (List.range 64).map (fun j => match cand[j]? with
      | some p => (canon (!int) p.2, e.indexOf b p.1)
      | none => (noLane int, 0xFFFFFFFF))
    [.vreg (bits (fieldOf e.tmpl 1) 0 5) (pick.map (·.1)), .vreg (bits (fieldOf e.tmpl 6) 0 5) (pick.map (·.2)),
      .flags (laneSnan int (e.pg b) xs)]))

/-- VPOPC (R198). -/
def execVpopc (cl : Nat) (s : State) : Host.Outcome State Fault Refusal :=
  .next (s.vectorOp cl 0x67 (fun e b =>
    let m := e.pred b 2 &&& e.pg b
    e.spread (BitVec.ofNat 32 ((List.range 64).filter (fun l => bit m l)).length)))

/-- Inclusive prefix sums over lanes in order: per lane the running value, absent while none is active (R199). -/
def scan (add : Lane → Lane → Lane × Flags) (pg : BitVec 64) : Option Lane → List (Nat × Lane) → List (Option Lane) × Flags
  | _, [] => ([], 0)
  | run, (l, x) :: rest =>
    if bit pg l then
      let (r, f) := match run with | some y => add y x | none => (x, 0)
      let (rs, g) := scan add pg (some r) rest
      (some r :: rs, f ||| g)
    else
      let (rs, g) := scan add pg run rest
      (run :: rs, g)

/-- VSCAN (R199). -/
def execVscan (cl : Nat) (s : State) : Host.Outcome State Fault Refusal :=
  .next (s.vectorOp cl 0x69 (fun e b =>
    let int := e.sel == 1
    let xs := e.lanes b 2 (!int)
    let pg := e.pg b
    let add := fun x y => if int then (x + y, 0) else addF x y e.mode
    let (rs, f) := scan add pg none ((List.range 64).zip xs)
    let d := bits (fieldOf e.tmpl 1) 0 5
    let new := rs.map (fun r => match r with | some x => canon (!int) x | none => 0)
    [.vreg d (mergeLanes pg e.zeroing (b.getV d) new), .flags (f ||| laneSnan int pg xs)]))

/-! ## VMOVS and PLOG (R200, R201) -/

/-- VMOVS (R200). -/
def execVmovs (cl : Nat) (s : State) : Host.Outcome State Fault Refusal :=
  .next (s.vectorOp cl 0x68 (fun e b =>
    let v := (e.lanes b 2 false).getD (bits (e.lane0 b 3) 0 6) 0
    [.push (bits (fieldOf e.tmpl 1) 0 3) (if e.sel = 1 then sx v else zx v)]))

/-- PLOG (R201). -/
def execPlog (cl : Nat) (s : State) : Host.Outcome State Fault Refusal :=
  .next (s.vectorOp cl 0x6A (fun e b =>
    let t := e.sel
    let x := e.pred b 2
    let y := e.pred b 3
    let v := BitVec.ofNat 64 (((List.range 64).map (fun l =>
      if t.testBit (2 * (bit x l).toNat + (bit y l).toNat) then 2 ^ l else 0)).foldl (· + ·) 0)
    [.preg (bits (fieldOf e.tmpl 1) 0 3) v]))

end Sys2Proof.Machine
end

