-- ==== Sys2Proof/Machine/SpadOps.lean ====
section
/-! DEFINITION. Wide operations on the scratchpad (R221, R252-R258): moves between tiles, vectors and banks, and TABLD. -/

namespace Sys2Proof.Machine

/-! ## Elements in the scratchpad (R162) -/

/-- Element k of width w from offset o on: the offsets of its bytes. -/
def elemBytes (o w k : Nat) : List Nat :=
  if w = 4 then [o + k / 2] else (List.range (w / 8)).map (fun i => o + k * (w / 8) + i)

/-- Read the bytes at offsets: the first uncorrectable one, or all of them. After an uncorrectable codeword no further one is read, so that
none behind it is corrected or counted; R247 does not say how far such a read goes (log 35). -/
def Core.gather (c : Core) : List Nat → Core × Except Nat (List Byte)
  | [] => (c, .ok [])
  | o :: os =>
    match c.readCell (o / bankBytes) (o % bankBytes) with
    | (c, none) => (c, .error o)
    | (c, some v) =>
      match c.gather os with
      | (c, .error x) => (c, .error x)
      | (c, .ok vs) => (c, .ok (BitVec.ofNat 8 v :: vs))

/-- Elements ks of width w from offset o on: their patterns, or the offset of an uncorrectable byte. -/
def Core.elements (c : Core) (o w : Nat) : List Nat → Core × Except Nat (List Nat)
  | [] => (c, .ok [])
  | k :: ks =>
    match c.gather (elemBytes o w k) with
    | (c, .error x) => (c, .error x)
    | (c, .ok bs) =>
      let v := if w = 4 then ofBytes bs / (if k % 2 = 1 then 16 else 1) % 16 else ofBytes bs
      match c.elements o w ks with
      | (c, .error x) => (c, .error x)
      | (c, .ok vs) => (c, .ok (v :: vs))

/-- The write of elements of width w from offset o on. -/
def elemWrite (o w : Nat) (xs : List (Nat × Nat)) : WideWrite :=
  if w = 4 then .nibbles (xs.map (fun x => (2 * o + x.1, BitVec.ofNat 4 x.2)))
  else .spad (xs.flatMap (fun x => cellsAt (o + x.1 * (w / 8)) (toBytes (w / 8) x.2)))

/-- Convert patterns, with all their flags. -/
def convertAll (a b : Format) (xs : List Nat) : List Nat × Flags :=
  let rs := xs.map (convert a b)
  (rs.map (·.1), rs.foldl (fun f r => f ||| r.2) 0)

/-- The format of a bank as the operation read it, with its table; otherwise the slot that holds none (R164). -/
def Core.formatOf (c : Core) (x : BitVec 64) : Except Nat Format :=
  match c.format? (fmtCode x) (fmtSlot x) with
  | some f => .ok f
  | none => .error (fmtSlot x)

/-- The lane format that elements of a bank take: INT32 or FP32 (R161). -/
def laneFormat (code : Nat) : Format := { code := if isInt code then 5 else 2 }

/-- 128 × the address in field k. -/
def QEntry.addr (e : QEntry) (k : Nat) : Nat := 128 * (fieldOf e.tmpl k).toNat

/-- start: 128 × addr + off (R253). -/
def QEntry.start (e : QEntry) (k : Nat) : Nat := ((e.addr k : Int) + (uniformVal (fieldOf e.tmpl 3) e.vals 3).toInt).toNat

/-- The shape of the tile a field names, as read at issue (R205). -/
def QEntry.shapeOf (e : QEntry) (k : Nat) : TileShape := TileShape.of (SMap.get 0 e.shapes (bits (fieldOf e.tmpl k) 0 4))

def activeList (pg : BitVec 64) : List Nat := (List.range 64).filter (bit pg)

/-- An h0 offset as a datum. -/
def offInfo (o : Nat) : BitVec 64 := BitVec.ofNat 64 o

/-- Read elements of one format and go on, or end in TABLE or POISON. -/
def State.withElements (s : State) (core : Nat) (fmt : BitVec 64) (o : Nat) (ks : List Nat) (k : State → Format → List Nat → Ran) : Ran :=
  match (s.core core).formatOf fmt with
  | .error slot => .fail s [] cTABLE (BitVec.ofNat 64 slot)
  | .ok f =>
    match (s.core core).elements o (fmtBits f.code) ks with
    | (c, .error x) => .fail (s.setCore core c) [] cPOISON (offInfo x)
    | (c, .ok xs) => k (s.setCore core c) f xs

/-! ## Tiles (R206, R254) -/

/-- TLD (R254). -/
def execTld (cl : Nat) (s : State) : Host.Outcome State Fault Refusal :=
  .next (s.runHead cl 0x00 (fun s e =>
    let core := cl / 4
    let start := e.start 2
    let n := (e.shapeOf 1).bytes
    match (s.core core).gather ((List.range n).map (start + ·)) with
    | (c, .error x) => .fail (s.setCore core c) [] cPOISON (offInfo x)
    | (c, .ok bs) => .done (s.setCore core c) [.tile (bits (fieldOf e.tmpl 1) 0 4) (cellsAt 0 bs)]))

/-- Byte i of tile t. -/
def Core.tileByte (c : Core) (t i : Nat) : Byte := SMap.get 0 c.tiles (32768 * t + i)

/-- TST (R254). -/
def execTst (cl : Nat) (s : State) : Host.Outcome State Fault Refusal :=
  .next (s.runHead cl 0xC0 (fun s e =>
    let t := bits (fieldOf e.tmpl 2) 0 4
    let n := (e.shapeOf 2).bytes
    .done s [.spad (cellsAt (e.start 1) ((List.range n).map ((s.core (cl / 4)).tileByte t)))]))

/-! ## Vectors (R255, R256) -/

/-- The vector write of lanes read from a bank. -/
def QEntry.loaded (e : QEntry) (b : Bank) (vals : SMap Lane) : WideWrite :=
  let d := bits (fieldOf e.tmpl 1) 0 5
  .vreg d (mergeLanes (e.pg b) e.zeroing (b.getV d) ((List.range 64).map (SMap.get 0 vals)))

/-- The lanes with the values of converted elements. -/
def lanesOf (f : Format) (ls xs : List Nat) : SMap Lane :=
  (ls.zip (convertAll f (laneFormat f.code) xs).1).foldl (fun m x => SMap.set 0 m x.1 (BitVec.ofNat 32 x.2)) []

/-- VLD (R255). -/
def execVld (cl : Nat) (s : State) : Host.Outcome State Fault Refusal :=
  .next (s.runHead cl 0x01 (fun s e =>
    let o := e.start 2
    s.withElements (cl / 4) (e.bankFmt (o / bankBytes)) o (List.range 64) (fun s f xs =>
      .done s [e.loaded (s.bank (s.activeBank cl)) (lanesOf f (List.range 64) xs)])))

/-- The element a lane's index names, and the offset of its first byte. -/
def QEntry.index (e : QEntry) (b : Bank) (l : Nat) : Nat := ((e.lanes b 3 false).getD l 0).toNat
def QEntry.elemAt (e : QEntry) (b : Bank) (k w l : Nat) : Nat := e.addr k + e.index b l * w / 8

/-- The first active lane whose element is not in the bank of the base. -/
def QEntry.outside (e : QEntry) (b : Bank) (k w : Nat) : Option Nat :=
  (activeList (e.pg b)).find? (fun l => decide (e.elemAt b k w l / bankBytes ≠ e.addr k / bankBytes))

/-- VLDG (R256). -/
def execVldg (cl : Nat) (s : State) : Host.Outcome State Fault Refusal :=
  .next (s.runHead cl 0x02 (fun s e =>
    let b := s.bank (s.activeBank cl)
    let fmt := e.bankFmt (e.addr 2 / bankBytes)
    let w := fmtBits (fmtCode fmt)
    match e.outside b 2 w with
    | some l => .fail s [] cHANDLE_BOUNDS (offInfo (e.elemAt b 2 w l))
    | none =>
      let ls := activeList (e.pg b)
      s.withElements (cl / 4) fmt (e.addr 2) (ls.map (e.index b)) (fun s f xs => .done s [e.loaded b (lanesOf f ls xs)])))

/-- The stores of active lanes into a bank: lane l to element k l. -/
def QEntry.storeLanes (e : QEntry) (s : State) (cl : Nat) (o : Nat) (fmt : BitVec 64) (k : Nat → Nat) : Ran :=
  let b := s.bank (s.activeBank cl)
  match (s.core (cl / 4)).formatOf fmt with
  | .error slot => .fail s [] cTABLE (BitVec.ofNat 64 slot)
  | .ok f =>
    let ls := activeList (e.pg b)
    let xs := e.lanes b 2 false
    let (vs, fl) := convertAll (laneFormat f.code) f (ls.map (fun l => (xs.getD l 0).toNat))
    .done s [elemWrite o (fmtBits f.code) ((ls.map k).zip vs), .flags fl]

/-- VST (R255). -/
def execVst (cl : Nat) (s : State) : Host.Outcome State Fault Refusal :=
  .next (s.runHead cl 0xC1 (fun s e =>
    let o := e.start 1
    e.storeLanes s cl o (e.bankFmt (o / bankBytes)) id))

/-- VSTS (R256). The highest-numbered lane's value of an element is written last. -/
def execVsts (cl : Nat) (s : State) : Host.Outcome State Fault Refusal :=
  .next (s.runHead cl 0xC2 (fun s e =>
    let b := s.bank (s.activeBank cl)
    let fmt := e.bankFmt (e.addr 1 / bankBytes)
    let w := fmtBits (fmtCode fmt)
    match e.outside b 1 w with
    | some l => .fail s [] cHANDLE_BOUNDS (offInfo (e.elemAt b 1 w l))
    | none => e.storeLanes s cl (e.addr 1) fmt (e.index b)))

/-! ## SPCPY and TABLD -/

/-- SPCPY (R257). Between two C4 banks whose slots both hold no table it reports the destination bank's slot; R401 asks for a slot number and
does not say which (log 31). -/
def execSpcpy (cl : Nat) (s : State) : Host.Outcome State Fault Refusal :=
  .next (s.runHead cl 0x03 (fun s e =>
    let core := cl / 4
    let n := 64 * (fieldOf e.tmpl 3).toNat
    match (s.core core).formatOf (e.bankFmt (e.addr 1 / bankBytes)) with
    | .error slot => .fail s [] cTABLE (BitVec.ofNat 64 slot)
    | .ok d => s.withElements core (e.bankFmt (e.addr 2 / bankBytes)) (e.addr 2) (List.range n) (fun s f xs =>
        let (vs, fl) := convertAll f d xs
        .done s [elemWrite (e.addr 1) (fmtBits d.code) ((List.range n).zip vs), .flags fl])))

/-- TABLD (R221). -/
def execTabld (cl : Nat) (s : State) : Host.Outcome State Fault Refusal :=
  .next (s.runHead cl 0x08 (fun s e =>
    let core := cl / 4
    let slot := bits (fieldOf e.tmpl 1) 0 4
    match (s.core core).elements (e.addr 2 + 32 * bits (fieldOf e.tmpl 3) 0 2) 16 (List.range 16) with
    | (c, .error x) => .fail (s.setCore core c) [] cPOISON (offInfo x)
    | (c, .ok xs) =>
      let s := s.setCore core c
      if xs.any (fun x => x / 128 % 256 == 255) then .fail s [] cTABLE (BitVec.ofNat 64 slot)
      else .done s [.tab slot (xs.map (BitVec.ofNat 16))]))

end Sys2Proof.Machine
end

