-- ==== Sys2Proof/Machine/VatOps.lean ====
section
/-! DEFINITION. The Vat commands and the moves between accumulators, tiles and the scratchpad (R206-R208, R213-R225). -/

namespace Sys2Proof.Machine

/-! ## Elements of tiles and accumulators -/

/-- Element (i, j) of a tile (R162). -/
def Core.tileElem (c : Core) (t : Nat) (x : TileShape) (i j : Nat) : Nat :=
  let k := i * x.cols + j
  let v := ofBytes ((elemBytes 0 (fmtBits x.fmt) k).map (c.tileByte t))
  if x.fmt = 0 then v / (if k % 2 = 1 then 16 else 1) % 16 else v

/-- Bytes of 4-bit elements, low nibble first; a last nibble that no element fills stays as it was. -/
def packNibbles (old : Byte) : List Nat → List Byte
  | [] => []
  | [x] => [withNibble old false (BitVec.ofNat 4 x)]
  | x :: y :: rest => BitVec.ofNat 8 (x % 16 + 16 * (y % 16)) :: packNibbles old rest

/-- The write of all elements of a tile, row by row. -/
def Core.tileWrite (c : Core) (t : Nat) (x : TileShape) (xs : List Nat) : WideWrite :=
  let w := fmtBits x.fmt
  .tile t (cellsAt 0 (if w = 4 then packNibbles (c.tileByte t (x.bytes - 1)) xs else xs.flatMap (toBytes (w / 8))))

/-- Rows and columns of a rectangle in row-major order. -/
def grid (rows cols : Nat) : List (Nat × Nat) := (List.range rows).flatMap (fun i => (List.range cols).map (fun j => (i, j)))

/-- Element (i, j) of an accumulator (R207). -/
def accAt (acc : SMap Lane) (i j : Nat) : Lane := SMap.get 0 acc (256 * i + j)

/-- The accumulator with the writes of commands that have left the array (R214). -/
def Cluster.accNow (c : Cluster) : SMap Lane :=
  c.qC.foldl (fun (a : SMap Lane) e => match e.phase with
    | .draining ws => ws.foldl (fun a w => match w with | .acc cells => setCells 0 a cells | _ => a) a
    | _ => a) c.acc

/-- Tile number of a field. -/
def QEntry.tileNo (e : QEntry) (k : Nat) : Nat := bits (fieldOf e.tmpl k) 0 4

/-! ## MMA and MMAS (R213, R214, R222, R223) -/

/-- The element of the quadrant or the region (R208). -/
def QEntry.place (e : QEntry) (p : Nat × Nat) : Nat × Nat :=
  if (e.shapeOf 2).fmt = 0 then p
  else
    let q := bits (fieldOf e.tmpl 0) 2 2
    (128 * (q / 2) + p.1, 128 * (q % 2) + p.2)

/-- One accumulator element of a command (R223). -/
def QEntry.product (e : QEntry) (c : Core) (fa fb : Format) (scaled : Bool) (i j : Nat) (x : Lane) : Lane :=
  let A := e.shapeOf 2
  let B := e.shapeOf 3
  let scale : Format := { code := 4 }
  (List.range (ceilDiv A.cols 32)).foldl (fun x b =>
    let ks := (List.range (Nat.min 32 (A.cols - 32 * b))).map (· + 32 * b)
    let sa := if scaled then scale.val (c.tileElem (e.tileNo 4) (e.shapeOf 4) i b) else .fin false 1 0
    let sb := if scaled then scale.val (c.tileElem (e.tileNo 5) (e.shapeOf 5) b j) else .fin false 1 0
    vatBlock x (ks.map (fun k => fa.val (c.tileElem (e.tileNo 2) A i k))) (ks.map (fun k => fb.val (c.tileElem (e.tileNo 3) B k j))) sa sb) x

/-- The accumulator writes of a command. -/
def QEntry.productWrites (e : QEntry) (s : State) (cl : Nat) (fa fb : Format) (scaled : Bool) : List WideWrite :=
  let acc := (s.cluster cl).accNow
  let n := (e.shapeOf 2).rows
  [.acc ((grid n n).map (fun p =>
    let a := e.place p
    (256 * a.1 + a.2, e.product (s.core (cl / 4)) fa fb scaled p.1 p.2 (accAt acc a.1 a.2))))]

/-- The format of a tile as its shape gives it, or the slot that holds no table. -/
def Core.tileFormat (c : Core) (x : TileShape) : Except Nat Format :=
  match c.format? x.fmt x.slot with
  | some f => .ok f
  | none => .error x.slot

/-- Cycles until a start takes effect: a powered-down array wakes first (R214). -/
def Vat.wake (v : Vat) : Nat := if v.asleep then 96 else 0

/-- A Vat command of session k could start in a cluster but for the lease. -/
def State.vatReady (s : State) (cl : Nat) (k : VatSession) : Bool :=
  match s.ready cl .C with
  | some e => e.isVat && e.session == some k
  | none => false

/-- The unit's lower-numbered members have no Vat command of the session ready (R212). -/
def State.firstMember (s : State) (cl : Nat) (k : VatSession) : Bool :=
  (s.unitClusters (s.activeBank cl)).all (fun c => decide (cl ≤ c) || !s.vatReady c k)

/-- The lease under which a command of session k may start now (R212-R214). -/
def State.leaseFor (s : State) (cl : Nat) (k : VatSession) : Option Lease :=
  let v := (s.core (cl / 4)).vat
  match v.lease with
  | some l =>
    if s.holdsVat (s.activeBank cl) && l.session == k && l.left != 0 && v.running.isNone
        && decide (s.cycles + v.wake < l.deadline) && s.firstMember cl k then some l else none
  | none => none

/-- A Vat command starts: it takes one of the lease's commands and occupies the array for max(K, 8) cycles (R214). -/
def State.startVat (s : State) (cl : Nat) (e : QEntry) (l : Lease) (ws : List WideWrite) : State :=
  let v := (s.core (cl / 4)).vat
  let s := s.setVat (cl / 4) { v with lease := some { l with left := l.left - 1 }, asleep := false,
                                      running := some (cl, s.cycles + v.wake + Nat.max (e.shapeOf 2).cols 8) }
  s.startOp cl .C e (.occupying ws)

/-- The command at the head of a C queue, whether or not its tokens and operands are there. -/
def State.headOp (s : State) (cl : Nat) : Option QEntry :=
  if (s.cluster cl).haltC then none else nextQueued (s.cluster cl).qC

/-- An older operation has still to load a codebook that this one reads (R106). -/
def State.tablesPending (s : State) (cl : Nat) (e : QEntry) : Bool :=
  let c := s.cluster cl
  (c.qL ++ c.qC ++ c.qS).any (fun x => seqBefore x.seq e.seq && meets x.writes (e.reads.filter (400 ≤ ·)))

/-- A Vat command faults; a closed session with nothing left loses its lease (R212). -/
def State.failVat (s : State) (cl : Nat) (e : QEntry) (code : Code) (info : BitVec 64) : State :=
  (s.failOp cl .C e code info).checkLease (cl / 4)

/-- A Vat command at the head of its queue: its tables and its session are checked there (R213, R222), and it starts once its operands, its
tokens and the lease are there. -/
def State.vatCommand (s : State) (cl wop : Nat) (scaled : Bool) : State :=
  match s.headOp cl with
  | none => s
  | some e =>
    if wopOf e.tmpl ≠ wop ∨ s.tablesPending cl e then s
    else
      let c := s.core (cl / 4)
      match c.tileFormat (e.shapeOf 2), c.tileFormat (e.shapeOf 3) with
      | .error n, _ => s.failVat cl e cTABLE (BitVec.ofNat 64 n)
      | _, .error n => s.failVat cl e cTABLE (BitVec.ofNat 64 n)
      | .ok fa, .ok fb =>
        match e.session with
        | none => s
        | some k =>
          if k.no = 0 then s.failVat cl e cLEASE (s.leaseReg (s.activeBank cl))
          else if s.ready cl .C != some e then s
          else match s.leaseFor cl k with
            | some l => s.startVat cl e l (e.productWrites s cl fa fb scaled)
            | none => s

/-- MMA (R223). -/
def execMma (cl : Nat) (s : State) : Host.Outcome State Fault Refusal :=
  .next (s.vatCommand cl 0x80 false)

/-- MMAS (R223). -/
def execMmas (cl : Nat) (s : State) : Host.Outcome State Fault Refusal :=
  .next (s.vatCommand cl 0x81 true)

/-! ## ACLR, ARD, AWR, ARDST (R224) -/

/-- ACLR (R224). -/
def execAclr (cl : Nat) (s : State) : Host.Outcome State Fault Refusal :=
  .next (s.runHead cl 0x82 (fun s e =>
    let f := fieldOf e.tmpl 0
    let q := bits f 2 2
    let cells := if bit f 4 then (grid 128 128).map (fun p => 256 * (128 * (q / 2) + p.1) + 128 * (q % 2) + p.2) else List.range 65536
    .done s [.acc (cells.map (fun k => (k, 0)))]))

/-- The accumulator elements of the rectangle that starts at fields 3 and 4, as patterns. -/
def QEntry.rect (e : QEntry) (acc : SMap Lane) (rows cols : Nat) : List Nat :=
  (grid rows cols).map (fun p => (accAt acc ((fieldOf e.tmpl 3).toNat + p.1) ((fieldOf e.tmpl 4).toNat + p.2)).toNat)

/-- ARD (R224). -/
def execArd (cl : Nat) (s : State) : Host.Outcome State Fault Refusal :=
  .next (s.runHead cl 0x83 (fun s e =>
    let c := s.core (cl / 4)
    let x := e.shapeOf 1
    match c.tileFormat x with
    | .error n => .fail s [] cTABLE (BitVec.ofNat 64 n)
    | .ok f =>
      let (vs, fl) := convertAll { code := 2 } f (e.rect (s.cluster cl).acc x.rows x.cols)
      .done s [c.tileWrite (e.tileNo 1) x vs, .flags fl]))

/-- AWR (R224). -/
def execAwr (cl : Nat) (s : State) : Host.Outcome State Fault Refusal :=
  .next (s.runHead cl 0x86 (fun s e =>
    let c := s.core (cl / 4)
    let x := e.shapeOf 2
    match c.tileFormat x with
    | .error n => .fail s [] cTABLE (BitVec.ofNat 64 n)
    | .ok f =>
      .done s [.acc ((grid x.rows x.cols).map (fun p =>
        (256 * ((fieldOf e.tmpl 3).toNat + p.1) + (fieldOf e.tmpl 4).toNat + p.2,
          BitVec.ofNat 32 (convert f { code := 2 } (c.tileElem (e.tileNo 2) x p.1 p.2)).1)))]))

/-- ARDST (R224). -/
def execArdst (cl : Nat) (s : State) : Host.Outcome State Fault Refusal :=
  .next (s.runHead cl 0xC5 (fun s e =>
    let rows := bits (fieldOf e.tmpl 5) 0 8 + 1
    let cols := bits (fieldOf e.tmpl 5) 8 8 + 1
    match (s.core (cl / 4)).formatOf (e.bankFmt (e.addr 1 / bankBytes)) with
    | .error n => .fail s [] cTABLE (BitVec.ofNat 64 n)
    | .ok f =>
      let (vs, fl) := convertAll { code := 2 } f (e.rect (s.cluster cl).acc rows cols)
      .done s [elemWrite (e.addr 1) (fmtBits f.code) ((List.range (rows * cols)).zip vs), .flags fl]))

/-! ## TXP and TABSEL (R225) -/

/-- TXP (R225). -/
def execTxp (cl : Nat) (s : State) : Host.Outcome State Fault Refusal :=
  .next (s.runHead cl 0x84 (fun s e =>
    let c := s.core (cl / 4)
    let d := e.shapeOf 1
    .done s [c.tileWrite (e.tileNo 1) d ((grid d.rows d.cols).map (fun p => c.tileElem (e.tileNo 2) (e.shapeOf 2) p.2 p.1))]))

/-- TABSEL (R225). Where the slots of both tiles are invalid, TABLE names the source tile's (R401 asks for one slot; log 31). -/
def execTabsel (cl : Nat) (s : State) : Host.Outcome State Fault Refusal :=
  .next (s.runHead cl 0x85 (fun s e =>
    let c := s.core (cl / 4)
    let d := e.shapeOf 1
    let x := e.shapeOf 2
    match c.tileFormat x, c.tileFormat d with
    | .error n, _ => .fail s [] cTABLE (BitVec.ofNat 64 n)
    | _, .error n => .fail s [] cTABLE (BitVec.ofNat 64 n)
    | .ok fs, .ok fd =>
      .done s [c.tileWrite (e.tileNo 1) d ((grid d.rows d.cols).map (fun p => (convert fs fd (c.tileElem (e.tileNo 2) x p.1 p.2)).1))]))

end Sys2Proof.Machine
end

