-- ==== Sys2Proof/Machine/Separator.lean ====
section
/-! DEFINITION. The Separator (R317-R333): loading a grammar, evaluating it, and reading rule values. -/

namespace Sys2Proof.Machine

/-- Where and why a Separator operation faults: a code recorded in g_status with its id, or an uncorrectable codeword. -/
inductive SepFault where
  | at (code : Code) (row : Bool) (id : Nat)
  | poison (off : Nat)
  deriving DecidableEq, Repr

/-- g_status without bound and depth, after a fault (R323). -/
def faultStatus (code : Code) (row : Bool) (id : Nat) : BitVec 64 :=
  BitVec.ofNat 64 (id % 2 ^ 32 * 2 ^ 32 + (if row then 2 ^ 31 else 0) + code.toNat * 2 ^ 16)

/-- The end of a faulting operation: g_status is written, and is the datum unless a codeword was uncorrectable (R326, R329). -/
def State.sepFail (s : State) (b : Bank) (ws : List WideWrite) (f : SepFault) : Ran :=
  match f with
  | .at c row id =>
    let v := faultStatus c row id
    .fail s (ws ++ [.gstat v]) c ({ b with gStatus := v }.gStatusReg)
  | .poison off => .fail s [.gstat (faultStatus cPOISON false 0xFFFFFFFF)] cPOISON (offInfo off)

/-- A fault in the header or the binding. -/
def whole (c : Code) : SepFault := .at c false 0xFFFFFFFF

/-! ## GLOAD (R317, R326) -/

/-- The header's fields with the value table. -/
def bindingOf (image : Nat) (h : List Byte) : Binding :=
  let w := fun o => ofBytes ((h.drop o).take 4)
  { image := image, depth := w 0 / 2 ^ 16 % 256, rules := w 4, rows := w 8, cols := w 12, symbols := w 16, ruleIndex := w 20,
    rowIndex := w 24, stream := w 28,
    table := (List.range 256).map (fun k => BitVec.ofNat 16 (ofBytes ((h.drop (64 + 2 * k)).take 2))) }

/-- The first check of R326 that fails. An empty range must begin inside the usable scratchpad or at its end as well; the rule speaks of the bytes of
a range only (log 62). -/
def Binding.check (g : Binding) (h : List Byte) (limit : Nat) : Option Code :=
  let inside := fun off n => decide (g.image + off + n ≤ spadBytes)
  if !(ofBytes (h.take 2) == 1 && h.getD 3 0 == 0 && ((h.drop 32).take 32).all (· == 0) && decide (1 ≤ g.rows)
      && decide (g.rows ≤ 65536) && decide (1 ≤ g.cols) && decide (g.cols ≤ 8388608)) then some cRULE_TOPOLOGY
  else if 8192 < g.rules then some cRVF_OVERFLOW
  else if limit < g.depth ∨ (g.depth = 0) ≠ (g.rules = 0) then some cRULE_DEPTH
  else if g.ruleIndex % 8 ≠ 0 ∨ g.rowIndex % 8 ≠ 0 ∨ g.stream % 4 ≠ 0 then some cALIGN
  else if !(inside g.ruleIndex (8 * g.rules) && inside g.rowIndex (8 * g.rows) && inside g.stream (4 * g.symbols)) then
    some cHANDLE_BOUNDS
  else none

/-- GLOAD (R326). -/
def execGload (cl : Nat) (s : State) : Host.Outcome State Fault Refusal :=
  .next (s.runHead cl 0x09 (fun s e =>
    let b := s.bank (s.activeBank cl)
    match (s.core (cl / 4)).gather ((List.range 576).map (e.addr 1 + ·)) with
    | (c, .error x) => (s.setCore (cl / 4) c).sepFail b [] (.poison x)
    | (c, .ok h) =>
      let s := s.setCore (cl / 4) c
      let g := bindingOf (e.addr 1) h
      match g.check h e.limit.toNat with
      | some code => s.sepFail b [] (whole code)
      | none => .done s [.bind g]))

/-! ## The value of a sequence (R327) -/

/-- What a GMV works on: the core as read so far, the rule values and depths, the flags. -/
structure Sep where
  core   : Core
  /-- entries that sequences refer to -/
  uses   : List Nat := []
  rvf    : SMap Lane := []
  depths : SMap Nat := []
  flags  : Flags := 0
  deriving DecidableEq, Repr

/-- One symbol's term: an exact product or a stored value, with its flags. -/
def symbolVal (g : Binding) (x : SMap Lane) (rvf : SMap Lane) (v : Nat) (y : Nat) : Val × Flags :=
  if y / 2 ^ 31 = 0 then
    let a := valB (g.table.getD (y % 256) 0)
    let b := valF (SMap.get 0 x (y / 256))
    let (p, f) := mulVal a b
    (p, f ||| snanFlag [a, b])
  else (valF (SMap.get 0 rvf (8 * (y % 2 ^ 31) + v)), 0)

/-- Add the terms from the left, each addition rounded. -/
def addTerms : Option Val → Flags → List (Val × Flags) → Option Val × Flags
  | a, f, [] => (a, f)
  | none, f, (t, g) :: ts => addTerms (some t) (f ||| g) ts
  | some a, f, (t, g) :: ts =>
    let (r, h) := addVal a t 0
    let (z, k) := finishF r 0 h
    addTerms (some (valF z)) (f ||| g ||| k) ts

/-- seqval of R327. -/
def seqval (g : Binding) (x rvf : SMap Lane) (v : Nat) (ys : List Nat) : Lane × Flags :=
  match addTerms none 0 (ys.map (symbolVal g x rvf v)) with
  | (none, f) => (0, f)
  | (some a, f) =>
    let (z, k) := finishF a 0 0
    (canon true z, f ||| k)

/-! ## GMV (R328) -/

/-- Split bytes into little-endian 4-byte symbols. -/
def symbolsOf : List Byte → List Nat
  | a :: b :: c :: d :: rest => ofBytes [a, b, c, d] :: symbolsOf rest
  | _ => []

/-- Read an index entry and its symbols; a sequence must lie within the stream. -/
def Sep.sequence (z : Sep) (g : Binding) (row : Bool) (id : Nat) : Sep × Except SepFault (Nat × List Nat) :=
  match z.core.gather ((List.range 8).map (g.image + (if row then g.rowIndex else g.ruleIndex) + 8 * id + ·)) with
  | (c, .error o) => ({ z with core := c }, .error (.poison o))
  | (c, .ok bs) =>
    let e := ofBytes bs
    let off := e % 2 ^ 32
    let len := e / 2 ^ 32 % 2 ^ 24
    if g.symbols < off + len then ({ z with core := c }, .error (.at cHANDLE_BOUNDS row id))
    else match c.gather ((List.range (4 * len)).map (g.image + g.stream + 4 * off + ·)) with
      | (c, .error o) => ({ z with core := c }, .error (.poison o))
      | (c, .ok ss) => ({ z with core := c }, .ok (e / 2 ^ 56 % 16, symbolsOf ss))

/-- The first symbol that breaks a rule: references at or above `bound`, columns at or above C. -/
def symbolFault (g : Binding) (bound : Nat) : List Nat → Option Code
  | [] => none
  | y :: ys =>
    if y / 2 ^ 31 = 1 ∧ bound ≤ y % 2 ^ 31 then some cRULE_TOPOLOGY
    else if y / 2 ^ 31 = 0 ∧ g.cols ≤ y / 256 then some cHANDLE_BOUNDS
    else symbolFault g bound ys

/-- The depth of a rule from its references. -/
def Sep.depthOf (z : Sep) (ys : List Nat) : Nat :=
  ys.foldl (fun d y => if y / 2 ^ 31 = 1 then Nat.max d (SMap.get 0 z.depths (y % 2 ^ 31) + 1) else d) 1

/-- The RVF entries that a sequence refers to, for n vectors. -/
def entriesOf (n : Nat) (ys : List Nat) : List Nat :=
  (ys.filter (fun y => decide (y / 2 ^ 31 = 1))).flatMap (fun y => (List.range n).map (8 * (y % 2 ^ 31) + ·))

/-- Rules from `id` on, `fuel` of them. -/
def Sep.rules (z : Sep) (g : Binding) (xs : List (SMap Lane)) (limit : Nat) : Nat → Nat → Sep × Option SepFault
  | 0, _ => (z, none)
  | fuel + 1, id =>
    match z.sequence g false id with
    | (z, .error f) => (z, some f)
    | (z, .ok (depth, ys)) =>
      match symbolFault g id ys with
      | some c => (z, some (.at c false id))
      | none =>
        let d := z.depthOf ys
        if d ≠ depth ∨ limit < d then (z, some (.at cRULE_DEPTH false id))
        else
          let rs := (cellsAt 0 xs).map (fun (p : Nat × SMap Lane) => (p.1, seqval g p.2 z.rvf p.1 ys))
          Sep.rules { z with
            uses := entriesOf xs.length ys ++ z.uses
            rvf := rs.foldl (fun m r => SMap.put m (8 * id + r.1) r.2.1) z.rvf
            depths := SMap.set 0 z.depths id d
            flags := rs.foldl (fun f r => f ||| r.2.2) z.flags } g xs limit fuel (id + 1)

/-- Rows from `r` on: their values by vector. -/
def Sep.rows (z : Sep) (g : Binding) (xs : List (SMap Lane)) : Nat → Nat → Sep × Except SepFault (List (List Lane))
  | 0, _ => (z, .ok [])
  | fuel + 1, r =>
    match z.sequence g true r with
    | (z, .error f) => (z, .error f)
    | (z, .ok (_, ys)) =>
      match symbolFault g g.rules ys with
      | some c => (z, .error (.at c true r))
      | none =>
        let rs := (cellsAt 0 xs).map (fun (p : Nat × SMap Lane) => seqval g p.2 z.rvf p.1 ys)
        let z := { z with uses := entriesOf xs.length ys ++ z.uses, flags := rs.foldl (fun f r => f ||| r.2) z.flags }
        match Sep.rows z g xs fuel (r + 1) with
        | (z, .error f) => (z, .error f)
        | (z, .ok more) => (z, .ok (rs.map (·.1) :: more))

/-- The bytes [o, o + n) lie in the usable scratchpad, in banks of the format that the side's first bank had at issue; the first bank itself
counts as it was read then, any other as it stands when the operation starts (R328, log 62). -/
def Core.sideOk (c : Core) (first : Nat) (fmt : BitVec 64) (o n : Nat) : Bool :=
  decide (o + n ≤ spadBytes) && (List.range ((o + n - 1) / bankBytes - o / bankBytes + 1)).all (fun i =>
    o / bankBytes + i == first || fmtCode (c.bankFmt (o / bankBytes + i)) == fmtCode fmt)

/-- Read `count` elements of a side as FP32. -/
def Core.floats (c : Core) (o code count : Nat) : Core × Except Nat (List Lane) :=
  match c.elements o (fmtBits code) (List.range count) with
  | (c, .error x) => (c, .error x)
  | (c, .ok vs) => (c, .ok (vs.map (fun v => BitVec.ofNat 32 (convert { code := code } { code := 2 } v).1)))

/-- Read the elements of each vector of a side. -/
def Core.vectors (c : Core) (o stride code count : Nat) : Nat → Nat → Core × Except Nat (List (List Lane))
  | 0, _ => (c, .ok [])
  | fuel + 1, v =>
    match c.floats (o + stride * v) code count with
    | (c, .error x) => (c, .error x)
    | (c, .ok xs) =>
      match c.vectors o stride code count fuel (v + 1) with
      | (c, .error x) => (c, .error x)
      | (c, .ok more) => (c, .ok (xs :: more))

/-- The operation of another cluster holds the Separator until it completes (R331). -/
def State.separatorBusy (s : State) (cl : Nat) : Bool :=
  (List.range 4).any (fun k => 4 * (cl / 4) + k != cl && (s.cluster (4 * (cl / 4) + k)).qC.any (fun e =>
    (wopOf e.tmpl == 0x90 || wopOf e.tmpl == 0x91) && e.done?.isSome))

/-- The Separator takes the operations that wait in the order in which they reached the heads of their queues (R331). -/
def State.separatorTakes (s : State) (cl : Nat) : Bool :=
  !s.separatorBusy cl && (match (s.core (cl / 4)).sepQueue with | k :: _ => k == cl % 4 | [] => true)

/-- A result row r of vector v, added to the old element when the operation accumulates, in the output format. -/
def outElement (code : Nat) (old : Option Lane) (x : Lane) : Nat × Flags :=
  let (z, f) := match old with | some y => addF y x 0 | none => (x, 0)
  let (w, g) := convert { code := 2 } { code := code } z.toNat
  (w, f ||| g)

/-- The writes of outputs: row by row of each vector. -/
def outWrites (o stride code : Nat) (olds : List (List Lane)) (out : List (List Lane)) : Nat → List WideWrite × Flags
  | 0 => ([], 0)
  | v + 1 =>
    let (ws, f) := outWrites o stride code olds out v
    let es := (cellsAt 0 out).map (fun (p : Nat × List Lane) =>
      (p.1, outElement code ((olds[v]?).map (fun l => l.getD p.1 0)) (p.2.getD v 0)))
    (ws ++ [elemWrite (o + stride * v) (fmtBits code) (es.map (fun x => (x.1, x.2.1)))], es.foldl (fun f x => f ||| x.2.2) f)

/-- Reading the operands of a GMV, and the evaluation of a bound section (R328). -/
def State.sectionValues (s : State) (cl : Nat) (e : QEntry) (b : Bank) (g : Binding) : Ran :=
  let core := cl / 4
  let n := bits (fieldOf e.tmpl 0) 2 3 + 1
  let fx := e.bankFmt (e.addr 2 / bankBytes)
  let fy := e.bankFmt (e.addr 1 / bankBytes)
  let xs := e.addr 3
  let ys := e.addr 4
  match (s.core core).vectors (e.addr 2) xs (fmtCode fx) g.cols n 0 with
  | (c, .error o) => (s.setCore core c).sepFail b [] (.poison o)
  | (c, .ok ins) =>
    match (if bit (fieldOf e.tmpl 0) 0 then c.vectors (e.addr 1) ys (fmtCode fy) g.rows n 0 else (c, .ok [])) with
    | (c, .error o) => (s.setCore core c).sepFail b [] (.poison o)
    | (c, .ok olds) =>
      let inputs := ins.map (fun l => (cellsAt 0 l).foldl (fun (m : SMap Lane) p => SMap.put m p.1 p.2) [])
      match Sep.rules { core := c } g inputs e.limit.toNat g.rules 0 with
      | (z, some f) => (s.setCore core z.core).sepFail b [.rvf z.rvf] f
      | (z, none) =>
        match Sep.rows z g inputs g.rows 0 with
        | (z, .error f) => (s.setCore core z.core).sepFail b [.rvf z.rvf] f
        | (z, .ok out) =>
          let (ws, f) := outWrites (e.addr 1) ys (fmtCode fy) olds out n
          .done (s.setCore core z.core) ([.rvf z.rvf] ++ ws ++ [.flags (z.flags ||| f)]) z.uses

/-- The byte ranges of the scratchpad that a GMV reads: its image's index entries and symbols, its inputs, and the outputs it adds to. -/
def QEntry.sources (e : QEntry) (g : Binding) : List (Nat × Nat) :=
  let n := bits (fieldOf e.tmpl 0) 2 3 + 1
  let side := fun (k stride len : Nat) => (List.range n).map (fun v =>
    (e.addr k + e.addr stride * v, len * (fmtBits (fmtCode (e.bankFmt (e.addr k / bankBytes))) / 8)))
  [(g.image + g.ruleIndex, 8 * g.rules), (g.image + g.rowIndex, 8 * g.rows), (g.image + g.stream, 4 * g.symbols)]
    ++ side 2 3 g.cols ++ (if bit (fieldOf e.tmpl 0) 0 then side 1 4 g.rows else [])

/-- The offset of a scratchpad byte lies in some ranges. -/
def inRanges (rs : List (Nat × Nat)) (o : Nat) : Bool := rs.any (fun r => decide (r.1 ≤ o) && decide (o < r.1 + r.2))

/-- The stored bytes of a core's codewords that hold bytes of some ranges. -/
def Core.columns (c : Core) (rs : List (Nat × Nat)) : SMap Byte :=
  c.spad.filter (fun x => (List.range 22).any (fun b => inRanges rs (b * bankBytes + x.1 % bankBytes)))

/-- The checks of a bound section at its start (R328). What it reads is checked and used at its completion, when the bytes that raced with it are
known (R332). -/
def State.evaluate (s : State) (cl : Nat) (e : QEntry) (b : Bank) (g : Binding) : Ran :=
  let core := cl / 4
  let n := bits (fieldOf e.tmpl 0) 2 3 + 1
  let fx := e.bankFmt (e.addr 2 / bankBytes)
  let fy := e.bankFmt (e.addr 1 / bankBytes)
  let wx := fmtBits (fmtCode fx) / 8
  let wy := fmtBits (fmtCode fy) / 8
  let xs := e.addr 3
  let ys := e.addr 4
  let fits := (List.range n).all (fun v =>
    (s.core core).sideOk (e.addr 2 / bankBytes) fx (e.addr 2 + xs * v) (g.cols * wx)
      && (s.core core).sideOk (e.addr 1 / bankBytes) fy (e.addr 1 + ys * v) (g.rows * wy))
  if !fits || (decide (1 < n) && decide (ys < g.rows * wy)) then s.sepFail b [] (whole cHANDLE_BOUNDS)
  else .done s [] [] (some { binding := g, cells := (s.core core).columns (e.sources g), failed := (s.core core).failed,
                             rvfBad := (s.core core).rvfBad })

/-- The scratchpad codewords that a GMV found at its start. -/
def GmvView.core (x : GmvView) : Core := { spad := x.cells, rebuild0 := x.failed[0]?, rebuild1 := x.failed[1]? }

/-- The 8-byte granules of a GMV's sources that have been written since its start: those in which a byte, as the code gives it (R247, R248),
differs. A codeword that could not be corrected then has no old data. -/
def GmvView.changed (x : GmvView) (c : Core) (rs : List (Nat × Nat)) : List Nat :=
  let now := c.columns rs
  if now = x.cells ∧ c.failed = x.failed then []
  else dedupNat ((dedupNat ((x.cells ++ now).map (·.1 % bankBytes))).flatMap (fun t =>
    if (x.core.decodeWord t).isNone then []
    else (cellsAt 0 ((x.core.dataOf t).zip (c.dataOf t))).filterMap (fun p =>
      if p.2.1 ≠ p.2.2 ∧ inRanges rs (p.1 * bankBytes + t) then some ((p.1 * bankBytes + t) / 8) else none)))

/-- The scratchpad as a GMV sees it when granules of its sources have been written while it executed: each of them holds old or new data,
as a free choice says (R258, R332, log 4). -/
def Core.mixed (c : Core) (no : Nat) (rs : List (Nat × Nat)) (old : Core) (changed : List Nat) : Core :=
  let stale := changed.filter (fun k => !Config.granuleNew (no * 2 ^ 64 + k))
  c.spCells ((stale.flatMap (fun k => (List.range 8).map (8 * k + ·))).filterMap (fun o =>
    if inRanges rs o then some (o, BitVec.ofNat 8 ((old.dataOf (o % bankBytes)).getD (o / bankBytes) 0)) else none))

/-- A GMV faults on an RVF entry that has become uncorrectable since it began (R321): the fault's id, row and datum are open (log 11). -/
def State.rvfFault (s : State) (cl : Nat) (q : QueueName) (e : QEntry) : State :=
  let v := (Config.openWord s.freeNo &&& 0xFFFFFFFF80000000#64) ||| BitVec.ofNat 64 (cPOISON.toNat * 2 ^ 16)
  let datum := Config.openWord (s.freeNo + 1)
  ({ s with freeNo := s.freeNo + 2 }.applyWrites (s.activeBank cl) [.gstat v]).failOp cl q e cPOISON datum

/-- A GMV evaluates and completes, or faults. What raced with it is gone from the scratchpad with it: that holds what was written. -/
def State.endGmv (s : State) (cl : Nat) (q : QueueName) (e : QEntry) (x : GmvView) : State :=
  let c := s.core (cl / 4)
  let b := s.activeBank cl
  let rs := e.sources x.binding
  let changed := x.changed c rs
  let seen := if changed.isEmpty then s
    else { s with freeNo := s.freeNo + 1 }.setCore (cl / 4) (c.mixed s.freeNo rs x.core changed)
  let kept := fun (t : State) => if changed.isEmpty then t else t.setCore (cl / 4) c
  match seen.sectionValues cl e (s.bank b) x.binding with
  | .done t ws uses _ =>
    if uses.any (fun k => SMap.get false c.rvfBad k && !SMap.get false x.rvfBad k) then (kept t).rvfFault cl q e
    else (kept t).completeOp cl q e ws
  | .fail t ws code info => ((kept t).applyWrites b ws).failOp cl q e code info
  | _ => s

/-- The first operation of a queue completes. -/
def State.finishOp (s : State) (cl : Nat) (q : QueueName) (e : QEntry) (ws : List WideWrite) : State :=
  match e.seen with
  | none => s.completeOp cl q e ws
  | some x => s.endGmv cl q e x

/-- WIDE_OPERATION_COMPLETE (R108). The first operation of the queue has executed; it completes once its pushes have room (R108, R202)
and no earlier status word for its token register is due (R109). -/
def execWideOperationComplete (cl : Nat) (q : QueueName) (s : State) : Host.Outcome State Fault Refusal :=
  .next (
    match (s.cluster cl).queue q with
    | e :: _ =>
      (match e.done? with
        | some ws =>
          if s.pushesFit (cl / 4) ws && s.statusNext cl e then
            let s := s.finishOp cl q e ws
            if q = .C then s.judge cl else s
          else s
        | none => s)
    | [] => s)

/-- GMV (R328). -/
def execGmv (cl : Nat) (s : State) : Host.Outcome State Fault Refusal :=
  .next (s.runHead cl 0x90 (fun s e =>
    let b := s.bank (s.activeBank cl)
    if !s.separatorTakes cl then .hold
    else match b.binding with
      | none => s.sepFail b [] (whole cRULE_TOPOLOGY)
      | some g => s.evaluate cl e b g))

/-! ## GRVF (R330) -/

/-- GRVF (R330). -/
def execGrvf (cl : Nat) (s : State) : Host.Outcome State Fault Refusal :=
  .next (s.runHead cl 0x91 (fun s e =>
    let b := s.bank (s.activeBank cl)
    let c := s.core (cl / 4)
    let base := (uniformVal (fieldOf e.tmpl 2) e.vals 2).toNat
    let v := bits (fieldOf e.tmpl 0) 2 3
    let d := bits (fieldOf e.tmpl 1) 0 5
    let key := fun l => 8 * (base + l) + v
    if !s.separatorTakes cl then .hold
    else match (activeList (e.pg b)).find? (fun l => SMap.get false c.rvfBad (key l)) with
      | some l => .fail { s with freeNo := s.freeNo + 1 } [] cPOISON (Config.openWord (s.freeNo + l))
      | none => .done s [.vreg d (mergeLanes (e.pg b) e.zeroing (b.getV d) ((List.range 64).map (fun l => SMap.get 0 c.rvf (key l))))]))

end Sys2Proof.Machine
end

