-- ==== Sys2Proof/Machine/Copy.lean ====
section
/-! DEFINITION. The copy engines (R280-R288): windows, conversions, what a copy reports, and its resumption. -/

namespace Sys2Proof.Machine

/-! ## What a copy moves -/

/-- A copy's elements between a memory side and a stream side. -/
structure CopyJob where
  /-- from the stream to memory: CPYO, CPYS, CPYNW -/
  out   : Bool
  total : Nat
  mem   : Format
  sp    : Format
  /-- h0 offset of the stream -/
  off   : Nat
  core  : Nat
  deriving DecidableEq, Repr

/-- Where memory element k lies: its physical address, or the fault its address meets with the virtual address; the page of the last
walk is carried along. -/
abbrev CopyAddr := State → Option (Nat × Page) → Nat → State × Option (Nat × Page) × Except (Code × BitVec 64) Nat

/-- Stream bytes of n elements. -/
def CopyJob.streamBytes (j : CopyJob) (n : Nat) : Nat := ceilDiv (n * fmtBits j.sp.code) 8

/-- Elements of a window of 4,096 stream bytes (R285). -/
def CopyJob.perWindow (j : CopyJob) : Nat := 32768 / fmtBits j.sp.code

/-- What becomes of one element: the bytes it is written to, its bytes of memory, and its converted pattern with flags or its fault. -/
structure CopyItem where
  k   : Nat
  dst : List Nat
  mem : List Nat := []
  val : Except (Code × BitVec 64) (Nat × Flags)

/-- Bytes of an element in memory. -/
def CopyJob.memBytes (j : CopyJob) : Nat := Nat.max (fmtBits j.mem.code / 8) 1

/-- Pattern of element k from its bytes. -/
def elemPattern (code k : Nat) (bs : List Byte) : Nat :=
  if code = 0 then ofBytes bs / (if k % 2 = 1 then 16 else 1) % 16 else ofBytes bs

/-- Read memory element k at an address. -/
def State.copyRead (s : State) (j : CopyJob) (k pa : Nat) : State × Except (Code × BitVec 64) Nat :=
  match s.objectFault (some j.core) pa j.memBytes false with
  | some c => (s, .error (c, 0))
  | none =>
    match s.readFault pa j.memBytes with
    | (s, some c) => (s, .error (c, 0))
    | (s, none) => (s, .ok (elemPattern j.mem.code k (s.bytes pa j.memBytes)))

/-- One element of a copy into the stream. -/
def State.copyIn (s : State) (j : CopyJob) (at' : CopyAddr) (last : Option (Nat × Page)) (k : Nat) : State × Option (Nat × Page) × CopyItem :=
  let dst := elemBytes j.off (fmtBits j.sp.code) k
  match at' s last k with
  | (s, last, .error e) => (s, last, { k := k, dst := dst, val := .error e })
  | (s, last, .ok pa) =>
    let mem := (List.range j.memBytes).map (pa + ·)
    match s.copyRead j k pa with
    | (s, .error e) => (s, last, { k := k, dst := dst, mem := mem, val := .error e })
    | (s, .ok x) => (s, last, { k := k, dst := dst, mem := mem, val := .ok (convert j.mem j.sp x) })

/-- One element of a copy out of the stream; its object checks are made, poison is left to its line. -/
def State.copyOut (s : State) (j : CopyJob) (at' : CopyAddr) (last : Option (Nat × Page)) (k : Nat) : State × Option (Nat × Page) × CopyItem :=
  match at' s last k with
  | (s, last, .error e) => (s, last, { k := k, dst := [], val := .error e })
  | (s, last, .ok pa) =>
    let dst := (List.range j.memBytes).map (pa + ·)
    match s.objectFault (some j.core) pa j.memBytes true with
    | some c => (s, last, { k := k, dst := [], val := .error (c, 0) })
    | none =>
      match (s.core j.core).elements j.off (fmtBits j.sp.code) [k] with
      | (c, .error o) => (s.setCore j.core c, last, { k := k, dst := dst, mem := dst, val := .error (cPOISON, offInfo o) })
      | (c, .ok xs) => (s.setCore j.core c, last, { k := k, dst := dst, mem := dst, val := .ok (convert j.sp j.mem (xs.headD 0)) })

/-- The elements from k on, n of them. -/
def State.copyItems (s : State) (j : CopyJob) (at' : CopyAddr) (last : Option (Nat × Page)) : Nat → Nat → State × List CopyItem
  | 0, _ => (s, [])
  | n + 1, k =>
    let (s, last, x) := if j.out then s.copyOut j at' last k else s.copyIn j at' last k
    let (s, xs) := s.copyItems j at' last n (k + 1)
    (s, x :: xs)

/-- The cells of destination bytes: pairs of 4-bit elements share a byte (R162). -/
def itemCells (code : Nat) : List CopyItem → List (Nat × Byte)
  | [] => []
  | [x] => match x.val with | .ok v => x.dst.zip (toBytes x.dst.length v.1) | .error _ => []
  | x :: y :: rest =>
    if code = 0 then
      (match x.val, y.val with
        | .ok a, .ok b => x.dst.zip [BitVec.ofNat 8 (a.1 % 16 + 16 * (b.1 % 16))]
        | _, _ => []) ++ itemCells code rest
    else
      (match x.val with | .ok v => x.dst.zip (toBytes x.dst.length v.1) | .error _ => []) ++ itemCells code (y :: rest)

def itemFlags (xs : List CopyItem) : Flags := xs.foldl (fun f x => match x.val with | .ok v => f ||| v.2 | .error _ => f) 0

def firstFault : List CopyItem → Option (Code × BitVec 64)
  | [] => none
  | x :: xs => match x.val with | .error e => some e | .ok _ => firstFault xs

/-- The sectors of a line that a write of cells reads first (R266). -/
def State.cellSectors (s : State) (cells : List (Nat × Byte)) (line : Nat) : List Nat :=
  if (s.writtenSectors cells line).length < 4 ∨ (wholeLines cells).contains line then [] else s.readSectors line [0, 1, 2, 3]

/-- The lines that cells may not be written to: a line written in part answers as R271 gives. -/
def State.linesFault (s : State) (cells : List (Nat × Byte)) : List Nat → State × List (Nat × Code)
  | [] => (s, [])
  | l :: ls =>
    let (s, c) := s.lineFault l (s.cellSectors cells l) ((wholeLines cells).contains l)
    let (s, rest) := s.linesFault cells ls
    (s, match c with | some c => (l, c) :: rest | none => rest)

/-- The cells of a failing window that hold new data: by granules, none of which an unread element shares (R286). -/
def newCells (no : Nat) (xs : List CopyItem) (cells : List (Nat × Byte)) : List (Nat × Byte) :=
  let bad := xs.flatMap (fun x => match x.val with | .error _ => x.dst.map (· / 8) | .ok _ => [])
  cells.filter (fun c => !bad.contains (c.1 / 8) && Config.granuleNew (no * 2 ^ 64 + c.1 / 8))

/-- Write the cells of a window. -/
def State.copyStore (s : State) (j : CopyJob) (cells : List (Nat × Byte)) : State :=
  if j.out then (s.store cells).clearPoison (wholeLines cells) else s.spStore j.core cells

/-- The requests of a window cross fabric ingress line by line (R65). -/
def State.copyCharge (s : State) (p : Nat) (xs : List CopyItem) : State :=
  let bytes := dedupNat (xs.flatMap (·.mem))
  (dedupNat (bytes.map (· / 128))).foldl (fun (s : State) l => s.request p (128 * l) (bytes.filter (fun a => decide (a / 128 = l))).length) s

/-- Move window k (R285, R286): its flags, or the fault that stops the copy there. A line of which a failing window writes only a part keeps its old
data where it answers such a write with POISON or MDUE (R271). -/
def State.copyWindow (s : State) (p : Nat) (j : CopyJob) (at' : CopyAddr) (k : Nat) : State × Except (Code × BitVec 64) Flags :=
  let lo := k * j.perWindow
  let (s, xs) := s.copyItems j at' none (Nat.min j.perWindow (j.total - lo)) lo
  let s := s.copyCharge p xs
  let cells := itemCells (if j.out then j.mem.code else j.sp.code) xs
  let (s, lines) := if j.out then s.linesFault cells (cellLines cells) else (s, [])
  let fault := match firstFault xs, lines with
    | some e, _ => some e
    | none, x :: _ => some (x.2, 0)
    | none, [] => none
  match fault with
  | some e =>
    let new := (newCells s.freeNo xs cells).filter (fun x => !lines.any (fun l => l.1 == x.1 / 128))
    let (t, more) := if j.out then s.linesFault new (cellLines new) else (s, [])
    ({ t with freeNo := s.freeNo + 1 }.copyStore j (new.filter (fun x => !more.any (fun l => l.1 == x.1 / 128))), .error e)
  | none => (s.copyStore j cells, .ok (itemFlags xs))

/-! ## What a copy reports (R285) -/

/-- A completion token: progress and code. -/
def copyStatus (progress : Nat) (code : Code) : BitVec 64 := BitVec.ofNat 64 (progress % 2 ^ 24 * 256 + code.toNat)

/-- The token register of a copy. -/
def QEntry.token (e : QEntry) : Nat := bits (fieldOf e.tmpl 1) 0 6

/-- A copy ends with its token and what it has written. -/
def QEntry.report (e : QEntry) (s : State) (ws : List WideWrite) (progress : Nat) (code : Code) : Ran :=
  .done s (ws ++ [.sreg e.token (copyStatus progress code)])

/-- Where a copy under way stands: its next window and the flags so far; none before it starts. -/
def QEntry.window (e : QEntry) : Option (Nat × Flags) := match e.phase with | .copying k f => some (k, f) | _ => none

/-- The first request of a window has to wait at fabric ingress (R65). -/
def State.copyWaits (s : State) (p : Nat) (j : CopyJob) (at' : CopyAddr) (k : Nat) : Bool :=
  match at' s none (k * j.perWindow) with
  | (_, _, .ok pa) => s.ingressWaits p pa
  | _ => false

/-- A copy of a unit of partition `part` moves its next window; with the last it ends, and its token is written at completion. `onPage`
acts on a PAGE at an address and a progress. -/
def QEntry.runWindow (e : QEntry) (s : State) (part : Nat) (j : CopyJob) (at' : CopyAddr) (k : Nat) (f : Flags)
    (onPage : State → BitVec 64 → Nat → State) : Ran :=
  if s.copyWaits part j at' k then .hold
  else
    let size := j.streamBytes j.total
    match s.copyWindow part j at' k with
    | (s, .error (c, va)) => e.report (if c = cPAGE then onPage s va (4096 * k) else s) [.flags f] (4096 * k) c
    | (s, .ok g) =>
      if 4096 * (k + 1) < size then .more s e (k + 1) (f ||| g) else e.report s [.flags (f ||| g)] size 0

/-! ## The memory side of a copy through a handle (R283) -/

/-- The page of an address lies under the handle. -/
def Handle.covers (h : Handle) (va : BitVec 64) : Bool := h.size != 0 && va.toNat / h.size == h.va.toNat / h.size

/-- The physical address of an element at a virtual address: through the handle, the last walk, or a walk of its own. -/
def State.copyWalk (s : State) (b : Nat) (h : Handle) (i : Intent) (last : Option (Nat × Page)) (va : BitVec 64) :
    State × Option (Nat × Page) × Except (Code × BitVec 64) Nat :=
  let cached := match last with
    | some (n, g) => if va.toNat / g.size = n then some g else none
    | none => none
  if h.covers va then (s, last, .ok (h.frame + va.toNat % h.size))
  else match cached, (s.bank b).unit with
    | some g, _ => (s, last, .ok (g.at va))
    | none, some u =>
      (match s.walk u.part u.asid va i with
        | (s, .error c) => (s, last, .error (c, va))
        | (s, .ok g) => (s.setAccessed g, some (va.toNat / g.size, g), .ok (g.at va)))
    | none, none => (s, last, .error (cPAGE, va))

/-- start: va + offset. -/
def QEntry.copyStart (e : QEntry) (h : Handle) : BitVec 64 := h.va + zx (uniformVal (fieldOf e.tmpl 3) e.vals 3)
def QEntry.copyElems (e : QEntry) : Nat := (fieldOf e.tmpl 6).toNat + 1
def QEntry.copyRows (e : QEntry) : Nat := bits (fieldOf e.tmpl 5) 0 12 + 1

/-- The start of row r: by the stride, or by the index the list holds for it (R280, R283). -/
def QEntry.rowStart (e : QEntry) (s : State) (core : Nat) (h : Handle) (gather : Bool) (r : Nat) :
    State × Except (Code × BitVec 64) (BitVec 64) :=
  let w := SMap.get 0 e.vals 7
  if gather then
    match (s.core core).gather ((List.range 4).map (bits w 32 32 + 4 * r + ·)) with
    | (c, .error o) => (s.setCore core c, .error (cPOISON, offInfo o))
    | (c, .ok bs) => (s.setCore core c, .ok (e.copyStart h + BitVec.ofNat 64 (ofBytes bs * bits w 0 32)))
  else (s, .ok (e.copyStart h + BitVec.ofNat 64 r * w))

/-- Bytes of a row in memory. -/
def QEntry.rowBytes (e : QEntry) (j : CopyJob) : Nat := ceilDiv (e.copyElems * fmtBits j.mem.code) 8

/-- A row reaches host memory, through the handle's page or another (R283). No page is smaller than 64 KiB. -/
def State.rowInHost (s : State) (b : Nat) (h : Handle) (i : Intent) (row : BitVec 64) (n : Nat) : Bool :=
  ((List.range ((row.toNat % 65536 + n - 1) / 65536 + 1)).map (fun k => if k = 0 then row else (row >>> 16 <<< 16) + BitVec.ofNat 64 (65536 * k))).any
    (fun va => match s.copyWalk b h i none va with
      | (_, _, .ok pa) => decide (memKind pa = MemKind.host)
      | _ => false)

/-- The addressing of CPY, CPYG, CPYO and CPYS. A row that reaches host memory fails before any of it is read or written (R283). -/
def QEntry.copyAt (e : QEntry) (b : Nat) (h : Handle) (gather : Bool) (j : CopyJob) : CopyAddr := fun s last k =>
  let c := k % e.copyElems
  let i : Intent := { write := j.out, user := SMap.get 0 e.vals 9 == 1 }
  match e.rowStart s j.core h gather (k / e.copyElems) with
  | (s, .error x) => (s, last, .error x)
  | (s, .ok row) =>
    let va := row + BitVec.ofNat 64 (if j.mem.code = 0 then c / 2 else c * j.memBytes)
    if va.toNat % j.memBytes ≠ 0 then (s, last, .error (cALIGN, 0))
    else if s.rowInHost b h i row (e.rowBytes j) then (s, last, .error (cPERM, 0))
    else s.copyWalk b h i last va

/-! ## Starting a copy (R282, R283, R286) -/

/-- The handle of a copy once its walk is over and its 32 cycles have passed (R234); none while it waits. A walk that no register carries
any more ends here. -/
def State.copyHandle (s : State) (b : Nat) (e : QEntry) : State × Option Handle :=
  let h := e.handle
  if h.state ≠ .translating ∧ h.state ≠ .pending then (s, some h)
  else if ((s.bank b).handle (bits (fieldOf e.tmpl 2) 0 4)).walking h.walk || decide (s.cycles < h.start + 32) then (s, none)
  else if h.result.isSome then (s, some h.windowed)
  else match (s.bank b).unit with
    | none => (s, none)
    | some u =>
      let (s, r) := s.walk u.part u.asid h.va { write := h.wi, user := h.user }
      let s := match r with | .ok g => s.setAccessed g | .error _ => s
      let x := h.walked r
      (s, some (if x.state = .translating then x.windowed else x))

/-- The device sends a copy's page request and remembers it for a CPYR, the newest first (R286, R287). -/
def State.copyPage (s : State) (b walk : Nat) (va : BitVec 64) (e : QEntry) (progress : Nat) : State :=
  match (s.bank b).unit with
  | none => s
  | some u =>
    let (s, id) := s.pageRequest b va true walk
    let x := s.part u.part
    let a : CopyAnswer := { bank := b, progress := progress, fields := e.copyFields, token := e.token, request := id,
                            answered := false, failed := false }
    s.setPart u.part { x with answers := a :: x.answers }

/-- Out of the stream: CPYO and CPYS. -/
def outKind (kind : Nat) : Bool := decide (2 ≤ kind)

/-- A copy with the tables of its formats as they stand at its start, which it uses to its end (R164): an invalid slot fails it (R284). -/
def QEntry.withTables (e : QEntry) (s : State) (b : Nat) : Option QEntry :=
  let c := s.core (b / 8)
  let f2 := fieldOf e.tmpl 2
  match c.format? (bits f2 4 3) (bits f2 7 4), c.formatOf (e.bankFmt (e.addr 4 / bankBytes)) with
  | some mem, .ok sp => some { e with tables := SMap.set [] (SMap.set [] [] 2 mem.table) 4 sp.table }
  | _, _ => none

/-- A format by its code and slot with the table that a copy has taken for a field. -/
def QEntry.takenFormat (e : QEntry) (field code slot : Nat) : Format :=
  if code = 0 then { code := 0, slot := slot, table := SMap.get [] e.tables field } else { code := code }

/-- The transfer of a copy that has started. -/
def QEntry.copyJob (e : QEntry) (b kind : Nat) : CopyJob :=
  let f2 := fieldOf e.tmpl 2
  let x := e.bankFmt (e.addr 4 / bankBytes)
  { out := outKind kind, total := e.copyRows * e.copyElems, mem := e.takenFormat 2 (bits f2 4 3) (bits f2 7 4),
    sp := e.takenFormat 4 (fmtCode x) (fmtSlot x), off := e.addr 4, core := b / 8 }

/-- A copy of a kind starts from progress p: what its handle's state decides comes first (R286). -/
def QEntry.copyBegin (e : QEntry) (s : State) (b kind p : Nat) : Ran :=
  match s.copyHandle b e with
  | (_, none) => .hold
  | (s, some h) =>
    match h.state with
    | .fault code => e.report (if code = cPAGE then s.copyPage b h.walk (e.copyStart h) e p else s) [] p code
    | .valid =>
      if outKind kind && !h.wi then e.report s [] p cPERM
      else match e.withTables s b with
        | none => e.report s [] p cTABLE
        | some e =>
          if h.limit ≤ (uniformVal (fieldOf e.tmpl 3) e.vals 3).toNat then e.report s [] p cHANDLE_BOUNDS
          else .more s { e with handle := h } (p / 4096) 0
    | _ => e.report s [] p cHANDLE_INVALID

/-- A copy under way moves window k, or stops there when a REVOKE has taken its handle (R286). -/
def QEntry.copyGo (e : QEntry) (s : State) (b kind k : Nat) (f : Flags) : Ran :=
  match e.handle.state, (s.bank b).unit with
  | .valid, some u =>
    let j := e.copyJob b kind
    e.runWindow s u.part j (e.copyAt b e.handle (kind % 2 == 1) j) k f (fun s va p => s.copyPage b 0 va e p)
  | _, _ => e.report s [.flags f] (4096 * k) cHANDLE_INVALID

/-- A step of a copy of a kind (0 CPY, 1 CPYG, 2 CPYO, 3 CPYS) from progress p on. -/
def QEntry.copy (e : QEntry) (s : State) (cl kind p : Nat) : Ran :=
  match e.window with
  | some (k, f) => e.copyGo s (s.activeBank cl) kind k f
  | none => e.copyBegin s (s.activeBank cl) kind p

/-- CPY (R283). -/
def execCpy (cl : Nat) (s : State) : Host.Outcome State Fault Refusal :=
  .next (s.runHead cl 0x04 (fun s e => e.copy s cl 0 0))

/-- CPYG (R283). -/
def execCpyg (cl : Nat) (s : State) : Host.Outcome State Fault Refusal :=
  .next (s.runHead cl 0x05 (fun s e => e.copy s cl 1 0))

/-- CPYO (R283). -/
def execCpyo (cl : Nat) (s : State) : Host.Outcome State Fault Refusal :=
  .next (s.runHead cl 0xC3 (fun s e => e.copy s cl 2 0))

/-- CPYS (R283). -/
def execCpys (cl : Nat) (s : State) : Host.Outcome State Fault Refusal :=
  .next (s.runHead cl 0xC4 (fun s e => e.copy s cl 3 0))

/-! ## CPYR (R287) -/

/-- Forget the answer a CPYR has taken. -/
def State.dropAnswer (s : State) (b : Nat) (a : CopyAnswer) : State :=
  match (s.bank b).unit with
  | none => s
  | some u =>
    let x := s.part u.part
    s.setPart u.part { x with answers := x.answers.filter (fun y => y.request ≠ a.request) }

/-- The stream of a copy in bytes. -/
def QEntry.copySize (e : QEntry) : Nat := ceilDiv (e.copyRows * e.copyElems * fmtBits (fmtCode (e.bankFmt (e.addr 4 / bankBytes)))) 8

/-- CPYR before it runs the copy it resumes (R287). -/
def QEntry.resume (e : QEntry) (s : State) (cl : Nat) : Ran :=
  let b := s.activeBank cl
  let code := e.status.extractLsb' 0 8
  let p := bits e.status 8 24
  let kind := bits (fieldOf e.tmpl 0) 4 2
  if code = 0 then .done s [.sreg e.token e.status]
  else if p % 4096 ≠ 0 ∨ e.copySize ≤ p then e.report s [] p cCOPY
  else if code ≠ cPAGE then e.copy s cl kind p
  else match s.copyAnswer b e with
    | none => e.copy s cl kind p
    | some a =>
      if !a.answered then .hold
      else if a.failed then e.report (s.dropAnswer b a) [] p cPAGE
      else e.copy (s.dropAnswer b a) cl kind p

/-- CPYR (R287). -/
def execCpyr (cl : Nat) (s : State) : Host.Outcome State Fault Refusal :=
  .next (s.runHead cl 0x07 (fun s e => if e.window.isSome then e.copy s cl (bits (fieldOf e.tmpl 0) 4 2) 0 else e.resume s cl))

end Sys2Proof.Machine
end

