-- ==== Sys2Proof/Machine/Churn.lean ====
section
/-! DEFINITION. The Churn (R334-R356): fitted regions, the surrogate's arithmetic, captures and steps. -/

namespace Sys2Proof.Machine

/-! ## Surrogates (R346, R347) -/

/-- Inputs and units of each layer, the output layer last. -/
def ChurnSlot.dims (c : ChurnSlot) : List (Nat × Nat) :=
  match c.layers with
  | 0 => [(c.ni, c.no)]
  | 1 => [(c.ni, c.width), (c.width, c.no)]
  | _ => [(c.ni, c.width), (c.width, c.width), (c.width, c.no)]

/-- One layer: its weights, unit by unit, and its biases. -/
structure Layer where
  n : Nat
  m : Nat
  w : List Lane
  c : List Lane
  deriving DecidableEq, Repr

/-- The parameters as layers. A layer's weights come before its biases. -/
def layersOf : List (Nat × Nat) → List Lane → List Layer
  | [], _ => []
  | (n, m) :: ds, ps => { n := n, m := m, w := ps.take (n * m), c := (ps.drop (n * m)).take m } :: layersOf ds (ps.drop (n * m + m))

def flatten (ls : List Layer) : List Lane := ls.flatMap (fun l => l.w ++ l.c)

/-- z + w × a with one rounding. -/
def mulAdd (z w a : Lane) : Lane := (fmaF w a z false false 0).1

def positive (z : Lane) : Bool := !(valF z).isNan && ltVal (.fin false 0 0) (valF z)

/-- z[j] of a layer. -/
def Layer.sums (l : Layer) (a : List Lane) : List Lane :=
  (List.range l.m).map (fun j =>
    (List.range l.n).foldl (fun z k => mulAdd z (l.w.getD (j * l.n + k) 0) (a.getD k 0)) (l.c.getD j 0))

/-- The unit's output from its sum. -/
def relu (z : Lane) : Lane := if positive z then z else if (valF z).isNan then canonNan else 0

/-- The inputs and sums of every layer. -/
def forward : List Layer → List Lane → List (List Lane × List Lane)
  | [], _ => []
  | l :: ls, a =>
    let z := l.sums a
    (a, z) :: forward ls (z.map relu)

/-- surr(x). -/
def surr (ls : List Layer) (x : List Lane) : List Lane := match (forward ls x).getLast? with | some r => r.2 | none => []

/-- One draw of the xorshift sequence. -/
def xorshift (x : BitVec 64) : BitVec 64 :=
  let x := x ^^^ (x <<< 13)
  let x := x ^^^ (x >>> 7)
  x ^^^ (x <<< 17)

/-- n drawn weights, and the state after them. -/
def draws : Nat → BitVec 64 → List Lane × BitVec 64
  | 0, x => ([], x)
  | n + 1, x =>
    let x := xorshift x
    let v := sextNat (bits x 52 12) 12
    let w := ((Val.fin (decide (v < 0)) v.natAbs (-12)).toF 0).1
    let (ws, y) := draws n x
    ((if v = 0 then 0 else w) :: ws, y)

/-- The parameters of a new slot (R347). -/
def initialParams : List (Nat × Nat) → BitVec 64 → List Lane
  | [], _ => []
  | [(n, m)], _ => List.replicate (n * m + m) 0
  | (n, m) :: ds, x =>
    let (ws, x) := draws (n * m) x
    ws ++ List.replicate m 0 ++ initialParams ds x

/-! ## A step (R348) -/

/-- The errors d of each layer, the first layer first, from those of the output layer. -/
def backward : List (Layer × List Lane) → List Lane → List (List Lane)
  | [], _ => []
  | [_], out => [out]
  | (_, z) :: (l, zs) :: rest, out =>
    match backward ((l, zs) :: rest) out with
    | [] => []
    | above :: more =>
      let d := (List.range z.length).map (fun j =>
        if positive (z.getD j 0) then
          (List.range l.m).foldl (fun g o => mulAdd g (l.w.getD (o * l.n + j) 0) (above.getD o 0)) 0
        else 0)
      d :: above :: more

/-- Gradients of one layer with one sample added. -/
def Layer.grad (g : Layer) (a d : List Lane) : Layer :=
  { g with
    w := (List.range (g.n * g.m)).map (fun i => mulAdd (g.w.getD i 0) (d.getD (i / g.n) 0) (a.getD (i % g.n) 0))
    c := (List.range g.m).map (fun j => (addF (g.c.getD j 0) (d.getD j 0) 0).1) }

/-- Gradients with one sample added. -/
def addSample (ls gs : List Layer) (x y : List Lane) : List Layer :=
  let f := forward ls x
  let out := match f.getLast? with | some r => List.zipWith (fun p q => (subF p q 0).1) r.2 y | none => []
  let ds := backward (ls.zip (f.map (·.2))) out
  List.zipWith (fun (g : Layer) (p : List Lane × List Lane) => g.grad p.1 p.2) gs ((f.map (·.1)).zip ds)

/-- round_f32(lr / b). -/
def stepSize (lr : Lane) (b : Nat) : Lane :=
  match valF lr with
  | .fin n m e => if m = 0 then lr else (roundBetween 0 n (m * 2 ^ 64 / b) (e - 64) (decide (m * 2 ^ 64 % b = 0))).1
  | _ => lr

/-- The b most recent samples. -/
def lastSamples {α : Type} (b : Nat) (buffer : List α) : List α := buffer.drop (buffer.length - b)

/-- The parameters after one step. -/
def ChurnSlot.stepped (c : ChurnSlot) : List Lane :=
  let ls := layersOf c.dims c.params
  let zero := ls.map (fun l => { l with w := l.w.map (fun _ => 0), c := l.c.map (fun _ => 0) })
  let gs := (lastSamples c.batch c.buffer).foldl (fun g s => addSample ls g s.1 s.2) zero
  let cst := stepSize c.lr c.batch
  List.zipWith (fun p g => (fmaF cst g p true false 0).1) c.params (flatten gs)

/-! ## Bounds (R349) -/

def isFinite (x : Lane) : Bool := match valF x with | .fin _ _ _ => true | _ => false

/-- A finite value as a multiple of 2^-149. -/
def scaled149 (x : Lane) : Int := match valF x with | .fin n m e => signed n (m * 2 ^ (e + 149).toNat) | _ => 0

/-- |ŷ - y| ≤ eps_abs + eps_rel × |y|, exactly. -/
def ChurnSlot.meets (c : ChurnSlot) (yhat y : Lane) : Bool :=
  isFinite yhat && isFinite y
    && decide ((scaled149 yhat - scaled149 y).natAbs * 2 ^ 149
        ≤ (scaled149 c.epsAbs).natAbs * 2 ^ 149 + (scaled149 c.epsRel).natAbs * (scaled149 y).natAbs)

def ChurnSlot.allMeet (c : ChurnSlot) (yhat y : List Lane) : Bool := (yhat.zip y).all (fun p => c.meets p.1 p.2)

/-- The acceptance test. -/
def ChurnSlot.accepted (c : ChurnSlot) : Bool :=
  decide (c.window ≤ c.buffer.length)
    && (lastSamples c.window c.buffer).all (fun s => c.allMeet (surr (layersOf c.dims c.params) s.1) s.2)

/-- One step of a slot in TRAIN or FALLBACK, with the state it leads to (R340). -/
def ChurnSlot.train (c : ChurnSlot) : ChurnSlot :=
  let c := { c with params := c.stepped, steps := c.steps + 1 }
  if c.params.any (fun p => !isFinite p) then { c with state := .invalid }
  else if c.accepted then { c with state := .substitute, count := 0 }
  else c

/-- A capture reaches the slot (R340, R345, R350). A failed check that finds FALLBACK only adds its samples (R357). -/
def ChurnSlot.capture (c : ChurnSlot) (k : Capture) : ChurnSlot :=
  let c := { c with buffer := lastSamples 4096 (c.buffer ++ k.samples) }
  match c.state with
  | .observe => if c.batch ≤ c.buffer.length then { c with state := .train }.train else c
  | .train => c.train
  | .fallback => if k.check && k.failed then c else c.train
  | .substitute =>
    if k.check && k.failed then
      { c with fallbacks := c.fallbacks + 1,
               state := if c.fallbacks + 1 < c.limit ∨ c.limit = 0 then .fallback else .invalid }
    else c
  | .invalid => c

/-- Cached copies of a slot's parameters on the cores of its die are dropped (R355). -/
def dropSurrogate (key : Nat) : SMap Core → SMap Core
  | [] => []
  | (n, c) :: m => (n, { c with surrogates := c.surrogates.filter (· ≠ key) }) :: dropSurrogate key m

/-! ## The descriptor (R334) -/

/-- A region descriptor. -/
structure Region where
  ins    : List Nat
  outs   : List Nat
  consts : List Nat
  layers : Nat
  width  : Nat
  pred   : Nat
  deriving DecidableEq, Repr

/-- The first n bytes of a group whose others are zero, each below a bound. -/
def namesOf (bs : List Byte) (n bound : Nat) : Option (List Nat) :=
  if (bs.take n).all (fun b => decide (b.toNat < bound)) && (bs.drop n).all (· == 0) then some ((bs.take n).map (·.toNat)) else none

/-- The descriptor of 16 bytes; none when it is malformed. -/
def regionOf (bs : List Byte) : Option Region :=
  let counts := bs.getD 2 0
  let topo := bs.getD 3 0
  let ni := bits counts 0 3
  let no := bits counts 3 2
  let nc := bits counts 5 2
  let layers := bits topo 0 2
  let code := bits topo 2 2
  if ofBytes (bs.take 2) = 1 ∧ 1 ≤ ni ∧ ni ≤ 4 ∧ 1 ≤ no ∧ no ≤ 2 ∧ nc ≤ 2 ∧ bit counts 7 = false
      ∧ layers ≤ 2 ∧ code ≤ 2 ∧ bits topo 4 4 = 0 ∧ (layers ≠ 0 ∨ code = 0) ∧ (bs.drop 13).all (· == 0) = true
      ∧ bs.getD 12 0 < 8 then
    match namesOf ((bs.drop 4).take 4) ni 32, namesOf ((bs.drop 8).take 2) no 32, namesOf ((bs.drop 10).take 2) nc 64 with
    | some ins, some outs, some consts =>
      if no = 2 ∧ outs.getD 0 0 = outs.getD 1 0 then none
      else some { ins := ins, outs := outs, consts := consts, layers := layers, width := if layers = 0 then 0 else 8 * 2 ^ code,
                  pred := (bs.getD 12 0).toNat }
    | _, _, _ => none
  else none

/-! ## AXBEGIN (R336-R342) -/

/-- Fetch n words for the issuing bank from an address on. -/
def State.fetchWords (s : State) (pc : BitVec 64) : Nat → State × Except Trap (List (BitVec 32))
  | 0 => (s, .ok [])
  | n + 1 =>
    match s.fetchWord s.ib pc with
    | (s, .error t) => (s, .error t)
    | (s, .ok w) =>
      match s.fetchWords (pc + 4) n with
      | (s, .error t) => (s, .error t)
      | (s, .ok ws) => (s, .ok (w :: ws))

/-- The issue group's banks in member order. -/
def State.groupBanks (s : State) : List Nat := (s.groupOf s.ib).map (bankOf s.ib)

/-- An operation under way on a member's cluster stands in the way of registers read and written now (R106). -/
def State.vectorsBusy (s : State) (reads writes : List Nat) : Bool :=
  (s.groupOf s.ib).any (fun cl => ((s.cluster cl).qL ++ (s.cluster cl).qC ++ (s.cluster cl).qS).any (fun e =>
    meets e.writes (reads ++ writes) || meets e.reads writes))

/-- Values of registers in the active lanes, by region lane (R344). -/
def State.regionLanes (s : State) (regs : List Nat) (pred : Nat) : List (Nat × List Lane) :=
  (cellsAt 0 s.groupBanks).flatMap (fun (m : Nat × Nat) =>
    let b := s.bank m.2
    (activeList (b.getP pred)).map (fun l => (64 * m.1 + l, regs.map (fun v => SMap.get 0 b.v (64 * v + l)))))

/-- The physical 64 KiB frames of a span of code, by a walk of each of its pages. -/
def State.spanFrames (s : State) (u : WorkUnit) (i : Intent) (va : BitVec 64) (n : Nat) : State × List Nat :=
  let pages := (List.range ((va.toNat % 65536 + n - 1) / 65536 + 1)).map (fun k =>
    if k = 0 then va else BitVec.ofNat 64 ((va.toNat / 65536 + k) * 65536))
  let (s, fs) := pages.foldl (fun (r : State × List Nat) a => match r.1.walk u.part u.asid a i with
    | (s, .ok g) => (s, r.2 ++ [g.at a / 65536])
    | (s, .error _) => (s, r.2)) (s, [])
  (s, dedupNat fs)

/-- The fitting registers are within their limits (R337, R338). -/
def Bank.fitOk (b : Bank) : Bool :=
  isFinite b.axEpsAbs && !bit b.axEpsAbs 31 && isFinite b.axEpsRel && !bit b.axEpsRel 31 && isFinite b.axLr && positive b.axLr
    && decide (16 ≤ b.axBatch.toNat ∧ b.axBatch.toNat ≤ 256) && decide (1 ≤ b.axWindow.toNat ∧ b.axWindow.toNat ≤ 4096)

/-- Before it decides an execution, the Churn of a die drops the cached copies of regions that have left SUBSTITUTE (R355). -/
def State.dropStale (s : State) (die : Nat) : State :=
  { s with cores := s.cores.map (fun x => (x.1, { x.2 with surrogates := x.2.surrogates.filter (fun key =>
      key / 64 != die || (match s.slot die (key % 64) with | some c => c.state == .substitute | none => false)) })) }

/-- The slot of a key on a die (R336). -/
def State.slotOf (s : State) (die p pa : Nat) (digest : BitVec 64) : Option (Nat × ChurnSlot) :=
  (List.range 64).findSome? (fun k => match s.slot die k with
    | some c => if c.part = p ∧ c.pa = pa ∧ c.digest = digest then some (k, c) else none
    | none => none)

/-- The digest of a region's constants. -/
def digestOf (cs : List (BitVec 64)) : BitVec 64 :=
  BitVec.ofNat 64 (ofBytes ((shake256 ((0x41 : Byte) :: (toBytes 8 (cs.getD 0 0).toNat ++ toBytes 8 (cs.getD 1 0).toNat))).take 8))

/-- What the Churn decides: the mode and the slot, or AX (R340, R341). -/
def State.decideMode (s : State) (u : WorkUnit) (g : Region) (pa : Nat) (digest : BitVec 64) (frames : List Nat) :
    State × Option (AxMode × Nat) :=
  let die := dieOf s.coreNo
  let s := s.dropStale die
  let b := s.cur
  match s.slotOf die u.part pa digest with
  | some (k, c) =>
    (match c.state with
      | .invalid => (s, some (.plain, k))
      | .substitute =>
        (s.setSlot die k (some { c with count := c.count + 1 }),
          some (if c.count.toNat % 2 ^ c.sample = 0 then .check else .substitute, k))
      | _ => (s, some (.capture, k)))
  | none =>
    match (List.range 64).find? (fun k => (s.slot die k).isNone) with
    | none => (s, some (.plain, 64))
    | some k =>
      if !b.fitOk then (s, none)
      else
        let c : ChurnSlot := {
          part := u.part
          pa := pa
          digest := digest
          stamp := s.unitNo
          epsAbs := b.axEpsAbs
          epsRel := b.axEpsRel
          lr := b.axLr
          batch := b.axBatch.toNat
          window := b.axWindow.toNat
          sample := b.axSample.toNat
          limit := b.axLimit.toNat
          ni := g.ins.length
          no := g.outs.length
          layers := g.layers
          width := g.width
          frames := frames }
        let c := { c with params := initialParams c.dims (0x9E3779B97F4A7C15 ^^^ BitVec.ofNat 64 k) }
        ({ s with unitNo := s.unitNo + 1 }.setSlot die k (some c), some (.capture, k))

/-- The core's cache of surrogates takes one up (R355). -/
def State.cacheSurrogate (s : State) (key : Nat) : State :=
  let c := s.curCore
  s.setCurCore { c with surrogates := (key :: c.surrogates.filter (· ≠ key)).take 8 }

/-- Write outputs in the active lanes of the members. -/
def State.writeOutputs (s : State) (outs : List Nat) (lanes : List (Nat × List Lane)) : State :=
  (cellsAt 0 s.groupBanks).foldl (fun (s : State) (m : Nat × Nat) =>
    let b := s.bank m.2
    let cells := (lanes.filter (fun x => x.1 / 64 == m.1)).flatMap (fun x =>
      (outs.zip x.2).map (fun o => (64 * o.1 + x.1 % 64, canon true o.2)))
    s.setBank m.2 { b with v := setCells 0 b.v cells }) s

/-- AX with the address of the AXBEGIN word. -/
def axFault (pc : BitVec 64) : Trap := precise cAX pc

/-- Open a region, or run it by its surrogate, in a decided mode. Either way it transfers, so no end test of a loop is made at the AXBEGIN
(log 39). -/
def State.enterRegion (s : State) (g : Region) (e : BitVec 64) (mode : AxMode) (slot : Nat) : Res :=
  let pc := s.cur.pc
  let u := s.cur.unitBytes
  let die := dieOf s.coreNo
  let lanes := s.regionLanes g.ins g.pred
  let c := s.slot die slot
  let yhat := match mode, c with
    | .check, some c => lanes.map (fun x => surr (layersOf c.dims c.params) x.2)
    | .substitute, some c => lanes.map (fun x => surr (layersOf c.dims c.params) x.2)
    | _, _ => []
  let s := if mode = .check ∨ mode = .substitute then s.cacheSurrogate (64 * die + slot) else s
  if mode = .substitute then
    .jump (s.writeOutputs g.outs (List.zipWith (fun (x : Nat × List Lane) y => (x.1, y)) lanes yhat)) (e + u)
  else
    let l : Latch := { mode := mode, endPc := e, start := pc, die := die, slot := slot, stamp := (match c with | some c => c.stamp | none => 0),
                       width := s.cur.width, outs := g.outs, lanes := lanes, yhat := yhat }
    .jump (s.groupBanks.foldl (fun (s : State) b => s.setBank b { (s.bank b) with latch := some l }) s) (pc + u + 16)

/-- The fabric cycle at which the AXBEGIN that waits in a bank has reached the Churn of a die (R432, R433). One held off by its operands has not
reached it; nor does one count whose bank cannot go on. -/
def State.atChurn (s : State) (die b : Nat) : Option Nat :=
  match (s.bank b).waits with
  | some { instr := .axbegin _, why := .itself, cycle := t, .. } =>
    if dieOf (b / 8) = die ∧ s.activeBank (b / 2) = b ∧ !s.parked b ∧ !s.paused b then some t else none
  | _ => none

/-- The order in which a Churn takes what reaches it: by fabric cycle, then ascending core, cluster and bank (R433). -/
def churnBefore (t b t' b' : Nat) : Bool := decide (t < t' ∨ (t = t' ∧ b < b'))

/-- An AXBEGIN of another bank is taken before what bank b has sent in cycle t. -/
def State.beginFirst (s : State) (die t b : Nat) : Bool :=
  s.banks.any (fun (x : Nat × Bank) => x.1 != b && (match s.atChurn die x.1 with
    | some t' => churnBefore t' x.1 t b
    | none => false))

/-- Something is taken before the AXBEGIN with which bank b has reached the Churn of a die in cycle t (R432, R433): what may still come in that
cycle, a capture that stands before it or an earlier one of its bank, or another bank's AXBEGIN. -/
def State.churnWaits (s : State) (die t b : Nat) : Bool :=
  decide (s.fabric ≤ t) || (SMap.get [] s.captures die).any (fun k => k.bank == b || churnBefore k.time k.bank t b) || s.beginFirst die t b

/-- The cycle at which the issuing bank's AXBEGIN has reached the Churn: now, unless it waits there already. -/
def State.reached (s : State) (die : Nat) (i : Instr) : Nat :=
  match s.cur.waits with
  | some w => if w.instr = i then (s.atChurn die s.ib).getD s.fabric else s.fabric
  | none => s.fabric

/-- AXBEGIN (R342). Its fetch faults come before the AX of what the fetched words hold (log 39). It waits for what the Churn takes before it. -/
def execAxbegin (o : BitVec 24) (s : State) : Host.Outcome State Fault Refusal :=
  s.finish (.axbegin o) (s.wholeUnit (.axbegin o) (fun u =>
    let pc := s.cur.pc
    let ub := s.cur.unitBytes
    let e := pc + 4 * sx o
    let span := (e - pc).toNat
    if s.cur.latch.isSome then .trap s (axFault pc)
    else if bit (e - pc) 63 || decide (span < ub.toNat + 16) || decide (span % ub.toNat ≠ 0) then .trap s (axFault pc)
    else match s.fetchWords (pc + ub) 4 with
      | (s, .error t) => .trap s t
      | (s, .ok desc) =>
        match s.fetchWords (pc + 4) (s.cur.width - 1) with
        | (s, .error t) => .trap s t
        | (s, .ok others) =>
          match s.fetchWords e s.cur.width with
          | (s, .error t) => .trap s t
          | (s, .ok ends) =>
            match regionOf (desc.flatMap (fun w => toBytes 4 w.toNat)) with
            | none => .trap s (axFault pc)
            | some g =>
              if ends.headD 0 ≠ 0xB1000000 ∨ (ends.drop 1 ++ others).any (· != 0) = true then .trap s (axFault pc)
              else
                let preds := if g.pred = 0 then [] else [100 + g.pred]
                if g.consts.any (fun k => s.cur.isPending (BitVec.ofNat 6 k)) || s.vectorsBusy (g.ins ++ preds) [] then .hold s .earlier
                else if !s.cur.axEnable then s.enterRegion g e .plain 64
                else
                  let i : Intent := { user := decide (s.cur.level = 0), exec := true }
                  match s.walk u.part u.asid pc i with
                  | (s, .error c) => .trap s (precise c pc)
                  | (s, .ok page) =>
                    let die := dieOf s.coreNo
                    if s.churnWaits die (s.reached die (.axbegin o)) s.ib then .wait s
                    else
                    let (s, frames) := s.spanFrames u i pc (span + 4)
                    match s.decideMode u g (page.at pc) (digestOf (g.consts.map (fun k => s.reg (BitVec.ofNat 6 k)))) frames with
                    | (s, none) => .trap s (axFault pc)
                    | (t, some (mode, k)) =>
                      if mode = .substitute ∧ s.vectorsBusy [] g.outs = true then .wait s
                      else t.enterRegion g e mode k))

/-- CHURN_CAPTURE (R345). The first capture of a die is taken once nothing that goes before it can come any more (R433). -/
def execChurnCapture (die : Nat) (s : State) : Host.Outcome State Fault Refusal :=
  .next (
    match SMap.get [] s.captures die with
    | [] => s
    | k :: ks =>
      if s.fabric ≤ k.time ∨ s.beginFirst die k.time k.bank then s
      else
      let s := { s with captures := SMap.set [] s.captures die ks }
      match s.slot die k.slot with
      | some c =>
        if c.stamp ≠ k.stamp then s
        else
          let c' := c.capture k
          let s := s.setSlot die k.slot (some c')
          if c.state = .substitute ∧ c'.state ≠ .substitute then { s with cores := dropSurrogate (64 * die + k.slot) s.cores } else s
      | none => s)

/-! ## AXEND (R343, R345) -/

/-- The samples of lanes whose values are all finite. -/
def samplesOf (ins outs : List (Nat × List Lane)) : List (List Lane × List Lane) :=
  (ins.zip outs).filterMap (fun p => if (p.1.2 ++ p.2.2).all isFinite then some (p.1.2, p.2.2) else none)

/-- The outputs of the latched lanes as they stand. -/
def State.latchedOutputs (s : State) (l : Latch) : List (Nat × List Lane) :=
  l.lanes.map (fun x =>
    let b := s.bank (s.groupBanks.getD (x.1 / 64) 0)
    (x.1, l.outs.map (fun v => SMap.get 0 b.v (64 * v + x.1 % 64))))

/-- The order in which a Churn takes captures: by cycle, then ascending core, cluster and bank (R432, R433). -/
def Capture.before (x k : Capture) : Bool := decide (x.time < k.time ∨ (x.time = k.time ∧ x.bank ≤ k.bank))

def insertCapture (k : Capture) : List Capture → List Capture
  | [] => [k]
  | x :: xs => if x.before k then x :: insertCapture k xs else k :: x :: xs

/-- Send a capture of the issuing bank to the Churn. -/
def State.sendCapture (s : State) (l : Latch) (check failed : Bool) (samples : List (List Lane × List Lane)) : State :=
  let k : Capture := { bank := s.ib, time := s.fabric, slot := l.slot, stamp := l.stamp, samples := samples, check := check, failed := failed }
  { s with captures := SMap.set [] s.captures l.die (insertCapture k (SMap.get [] s.captures l.die)) }

/-- AXEND (R343). -/
def execAxend (s : State) : Host.Outcome State Fault Refusal :=
  s.finish .axend (
    match s.cur.latch with
    | none => .trap { s with freeNo := s.freeNo + 1 } (axFault (Config.openWord s.freeNo))
    | some l =>
      if s.cur.pc ≠ l.endPc ∨ s.cur.width ≠ l.width ∨ s.cur.memberNo % s.cur.width ≠ 0 then .trap s (axFault l.start)
      else if s.vectorsBusy l.outs [] then .wait s
      else
        let close := fun (s : State) => s.groupBanks.foldl (fun (s : State) b => s.setBank b { (s.bank b) with latch := none }) s
        if l.mode = .plain ∨ l.mode = .substitute then .ok (close s)
        else if 16 ≤ (SMap.get [] s.captures l.die).length then .wait s
        else
          let outs := s.latchedOutputs l
          let samples := samplesOf l.lanes outs
          let failed := match s.slot l.die l.slot with
            | some c => c.stamp == l.stamp && !(List.zip l.yhat outs).all (fun p => c.allMeet p.1 p.2.2)
            | none => false
          .ok (close (s.sendCapture l (l.mode == .check) (l.mode == .check && failed) samples)))

/-! ## AXINV and AXSTAT (R353, R354) -/

/-- Continue with the physical address of a code address. -/
def State.withCode (s : State) (va : BitVec 64) (k : State → WorkUnit → Nat → Res) : Res :=
  match s.cur.unit with
  | none => .ok s
  | some u =>
    if bits va 0 2 ≠ 0 then .trap s (precise cALIGN va)
    else match s.walk u.part u.asid va { user := decide (s.cur.level = 0), exec := true } with
      | (s, .error c) => .trap s (precise c va)
      | (s, .ok g) => k s u (g.at va)

/-- Free the slots that `pred` picks (R352). -/
def freeSlotsOf (pred : ChurnSlot → Bool) : SMap (Option ChurnSlot) → SMap (Option ChurnSlot)
  | [] => []
  | (k, none) :: m => (k, none) :: freeSlotsOf pred m
  | (k, some c) :: m => if pred c then freeSlotsOf pred m else (k, some c) :: freeSlotsOf pred m

/-- AXINV (R353). -/
def execAxinv (a : BitVec 6) (s : State) : Host.Outcome State Fault Refusal :=
  s.finish (.axinv a) (s.withRegs [a] (s.withCode (s.reg a) (fun s u pa =>
    .ok { s with churn := freeSlotsOf (fun c => c.part == u.part && c.pa == pa) s.churn })))

/-- The codes AXSTAT reports. -/
def ChurnState.code (c : ChurnState) : Nat :=
  match c with | .observe => 1 | .train => 2 | .substitute => 3 | .fallback => 4 | .invalid => 5

/-- AXSTAT (R354). -/
def execAxstat (d : BitVec 6) (a : BitVec 6) (s : State) : Host.Outcome State Fault Refusal :=
  s.finish (.axstat d a) (s.withRegs [d, a] (s.withCode (s.reg a) (fun s u pa =>
    let die := dieOf s.coreNo
    let hits := (List.range 64).filterMap (fun k => match s.slot die k with
      | some c => if c.part = u.part ∧ c.pa = pa then some (k, c) else none
      | none => none)
    s.result d (match hits with
      | [] => 0
      | (k, c) :: _ =>
        BitVec.ofNat 64 (Nat.min c.steps (2 ^ 19 - 1) * 2 ^ 45 + c.buffer.length * 2 ^ 32 + hits.length * 2 ^ 24
          + Nat.min c.fallbacks 255 * 2 ^ 16 + 2 ^ 15 + k * 2 ^ 8 + c.state.code)))))

end Sys2Proof.Machine
end

