-- ==== Sys2Proof/Machine/Control.lean ====
section
/-! DEFINITION. Control flow, hardware loops, queue registers and gangs (R139-R148). -/

namespace Sys2Proof.Machine

/-! ## Branches and jumps (R139, R140) -/

/-- Branch if the condition holds. -/
def State.branch (s : State) (i : Instr) (a b : BitVec 6) (o : BitVec 12) (c : BitVec 64 → BitVec 64 → Bool) :
    Host.Outcome State Fault Refusal :=
  s.finish i (s.withRegs [a, b] (if c (s.reg a) (s.reg b) then .jump s (s.cur.pc + 4 * sx o) else .ok s))

/-- BEQ (R139). -/
def execBeq (a : BitVec 6) (b : BitVec 6) (o : BitVec 12) (s : State) : Host.Outcome State Fault Refusal :=
  s.branch (.beq a b o) a b o (fun x y => x == y)

/-- BNE (R139). -/
def execBne (a : BitVec 6) (b : BitVec 6) (o : BitVec 12) (s : State) : Host.Outcome State Fault Refusal :=
  s.branch (.bne a b o) a b o (fun x y => x != y)

/-- BLT (R139). -/
def execBlt (a : BitVec 6) (b : BitVec 6) (o : BitVec 12) (s : State) : Host.Outcome State Fault Refusal :=
  s.branch (.blt a b o) a b o (fun x y => x.slt y)

/-- BGE (R139). -/
def execBge (a : BitVec 6) (b : BitVec 6) (o : BitVec 12) (s : State) : Host.Outcome State Fault Refusal :=
  s.branch (.bge a b o) a b o (fun x y => !x.slt y)

/-- BLTU (R139). -/
def execBltu (a : BitVec 6) (b : BitVec 6) (o : BitVec 12) (s : State) : Host.Outcome State Fault Refusal :=
  s.branch (.bltu a b o) a b o (fun x y => x.ult y)

/-- BGEU (R139). -/
def execBgeu (a : BitVec 6) (b : BitVec 6) (o : BitVec 12) (s : State) : Host.Outcome State Fault Refusal :=
  s.branch (.bgeu a b o) a b o (fun x y => !x.ult y)

/-- JMP (R140). -/
def execJmp (o : BitVec 24) (s : State) : Host.Outcome State Fault Refusal :=
  s.finish (.jmp o) (.jump s (s.cur.pc + 4 * sx o))

/-- JAL (R140). -/
def execJal (o : BitVec 24) (s : State) : Host.Outcome State Fault Refusal :=
  s.finish (.jal o) (s.withRegs [62] (.jump (s.setReg 62 (s.cur.pc + s.cur.unitBytes)) (s.cur.pc + 4 * sx o)))

/-- JR's transfer to a word-aligned target, with the link register written after s[a] is read. -/
def State.jumpReg (s : State) (d : BitVec 6) (target : BitVec 64) : Res :=
  if bits target 0 2 ≠ 0 then .trap s (precise cALIGN target)
  else .jump (s.setReg d (s.cur.pc + s.cur.unitBytes)) target

/-- JR (R140). -/
def execJr (d : BitVec 6) (a : BitVec 6) (i : BitVec 12) (s : State) : Host.Outcome State Fault Refusal :=
  s.finish (.jr d a i) (s.withRegs [d, a] (s.jumpReg d (s.reg a + sx i)))

/-! ## Loops (R142, R143) -/

/-- Arm a level with a count, or pass the loop over when the count is 0. -/
def State.armLoop (s : State) (l : BitVec 2) (e : BitVec 12) (n : BitVec 64) : Res :=
  let b := s.cur
  let u := b.unitBytes
  let last := b.pc + u * zx e
  let level : LoopLevel := { armed := decide (n ≠ 0), start := b.pc + u, last := last }
  let s := s.setCur { b with lc := SMap.set 0 b.lc l.toNat n, loops := SMap.set {} b.loops l.toNat level }
  if n = 0 then .jump s (last + u) else .ok s

/-- LOOP (R142). -/
def execLoop (a : BitVec 6) (l : BitVec 2) (e : BitVec 12) (s : State) : Host.Outcome State Fault Refusal :=
  s.finish (.loop a l e) (s.withRegs [a] (s.armLoop l e (s.reg a)))

/-- The widest scope a place's memory reaches (R143). -/
def Place.widest (a : Place) : BitVec 3 :=
  if a.spad then 1 else match memKind a.pa with | .peer => 4 | .host => 5 | _ => 3

/-- LOOPM (R143). -/
def execLoopm (h : BitVec 4) (l : BitVec 2) (f : BitVec 6) (e : BitVec 12) (s : State) : Host.Outcome State Fault Refusal :=
  s.finish (.loopm h l f e) (
    let o := BitVec.ofNat 64 (8 * f.toNat)
    let va := (s.cur.handle h.toNat).reach o
    if va.toNat % 8 ≠ 0 then .trap s (precise cALIGN va)
    else s.withAccess h o 8 false (fun p => s.readAt p 8 (fun s v =>
      if ofBytes v = 0 then .wait s
      else s.synchronise p p.widest (fun s =>
        s.withAccess h (o + 8) 8 false (fun q => s.readAt q 8 (fun s n => s.armLoop l e (BitVec.ofNat 64 (ofBytes n))))))))

/-! ## Queue registers (R144, R145) -/

def Core.queueReg (c : Core) (n : Nat) : List (BitVec 64) := SMap.get [] c.q n
def Core.setQueueReg (c : Core) (n : Nat) (es : List (BitVec 64)) : Core := { c with q := SMap.set [] c.q n es }

/-- QPUSH (R144), a release at core scope (R145). -/
def execQpush (a : BitVec 6) (q : BitVec 3) (s : State) : Host.Outcome State Fault Refusal :=
  s.finish (.qpush a q) (s.withRegs [a] (s.afterAdds (
    let es := s.curCore.queueReg q.toNat
    if 8 ≤ es.length then .wait s else .ok (s.setCurCore (s.curCore.setQueueReg q.toNat (es ++ [s.reg a]))))))

/-- QPOP (R144). -/
def execQpop (d : BitVec 6) (q : BitVec 3) (s : State) : Host.Outcome State Fault Refusal :=
  s.finish (.qpop d q) (s.withRegs [d] (
    match s.curCore.queueReg q.toNat with
    | [] => .wait s
    | v :: es => .ok ((s.setCurCore (s.curCore.setQueueReg q.toNat es)).setReg d v)))

/-- QPOLL (R144). -/
def execQpoll (d : BitVec 6) (q : BitVec 3) (s : State) : Host.Outcome State Fault Refusal :=
  s.finish (.qpoll d q) (s.withRegs [d] (s.result d (BitVec.ofNat 64 (s.curCore.queueReg q.toNat).length)))

/-! ## Gangs (R146-R148) -/

/-- Change the bank of every cluster of a group. -/
def State.forGroup (s : State) (b : Nat) (group : List Nat) (f : Bank → Bank) : State :=
  group.foldl (fun (s : State) cl => s.setBank (bankOf b cl) (f (s.bank (bankOf b cl)))) s

/-- GANG (R146). A group that splits goes on at pc + 4v without the end test of R142 (log 17). -/
def execGang (w : BitVec 2) (s : State) : Host.Outcome State Fault Refusal :=
  s.finish (.gang w) (
    let v := s.cur.width
    let n := 2 ^ w.toNat
    if s.cur.forked ∨ v < n then .trap s (precise cGANG (wordInfo (.gang w)))
    else if n = v then .ok s
    else
      let pc := s.cur.pc + s.cur.unitBytes
      .keep (s.forGroup s.ib (s.groupOf s.ib) (fun b => { b.goTo pc with issueWidth := n, progress := s.now })))

/-- FORK of a group: every member goes on alone at its own s[a] (R147). -/
def State.forkGroup (s : State) (a : BitVec 6) (group : List Nat) : Res :=
  let b := s.ib
  if group.any (fun cl => (s.bank (bankOf b cl)).isPending a) then .wait s
  else match group.find? (fun cl => bits ((s.bank (bankOf b cl)).reg a) 0 2 != 0) with
    | some cl => .trap s (precise cALIGN ((s.bank (bankOf b cl)).reg a))
    | none => .keep (s.forGroup b group (fun x => { x.goTo (x.reg a) with forked := true, issueWidth := 1, progress := s.now }))

/-- FORK (R147). -/
def execFork (a : BitVec 6) (s : State) : Host.Outcome State Fault Refusal :=
  s.finish (.fork a) (
    match s.cur.unit with
    | some u => if u.width = 1 ∨ s.cur.forked then s.withRegs [a] (s.jumpReg 0 (s.reg a)) else s.forkGroup a (s.groupOf s.ib)
    | none => s.withRegs [a] (s.jumpReg 0 (s.reg a)))

/-- Banks of a unit's members. -/
def WorkUnit.banks (u : WorkUnit) (b : Nat) : List Nat := u.clusters.map (bankOf b)

/-- Every member of the unit waits at some bit, and no bit has them all (R148). -/
def State.joinStuck (s : State) (u : WorkUnit) (b : Nat) : Bool :=
  let gs := (u.banks b).map (fun k => (s.bank k).joined)
  gs.all (·.isSome) && gs.any (fun g => g != (s.bank (bankOf b u.base)).joined)

/-- All members of the unit have arrived at bit g. -/
def State.allJoined (s : State) (u : WorkUnit) (b : Nat) (g : Nat) : Bool :=
  (u.banks b).all (fun k => (s.bank k).joined == some g)

/-- A deadlocked JOIN raises GANG precisely on member 0's JOIN; the datum is its word. -/
def State.joinDeadlock (s : State) (u : WorkUnit) (b : Nat) : State :=
  if s.joinStuck u b then
    let m0 := bankOf b u.base
    let g := match (s.bank m0).joined with | some k => k | none => 0
    let s := s.setBank m0 { (s.bank m0) with joined := none }
    s.takeTrap m0 (precise cGANG (wordInfo (.join (BitVec.ofNat 3 g))))
  else s

/-- JOIN (R148). -/
def execJoin (g : BitVec 3) (s : State) : Host.Outcome State Fault Refusal :=
  s.finish (.join g) (
    match s.cur.unit with
    | none => .ok s
    | some u =>
      if s.cur.issueWidth = u.width ∧ !s.cur.forked then .ok s
      else
        let b := s.ib
        let s := s.forGroup b (s.groupOf b) (fun x => { x with joined := some g.toNat, joinAt := x.pc, waits := none, page := none })
        .keep (s.joinDeadlock u b))

/-- The unit re-forms at its full width at the bundle after member 0's JOIN (R148). A handler that a member still runs returns to the whole
group. -/
def State.reform (s : State) (u : WorkUnit) (b : Nat) : State :=
  let n := 4 * u.width
  let at0 := (s.bank (bankOf b u.base)).joinAt.toNat
  let pc := BitVec.ofNat 64 (at0 / n * n + n)
  s.forGroup b u.clusters (fun x => { x.goTo pc with joined := none, forked := false, issueWidth := u.width, skew := 0,
                                                     trapGroup := x.trapGroup.map (fun _ => (u.width, false)), progress := s.now })

/-- JOIN_REFORM (R148), once every member's accesses before its JOIN have been performed, which the resumed members' follow (R367). -/
def execJoinReform (bank : Nat) (g : Nat) (s : State) : Host.Outcome State Fault Refusal :=
  .next (match (s.bank bank).unit with
    | some u => if s.allJoined u bank g && (u.banks bank).all s.quietWay then s.reform u bank else s
    | none => s)

end Sys2Proof.Machine
end

