-- ==== Sys2Proof/Machine/Skimmer.lean ====
section
/-! DEFINITION. Publication (R364-R366, R393-R395): the Skimmer's walk over objects, its faults and its records, and PUB. -/

namespace Sys2Proof.Machine

/-- Who a walk acts for and what it makes of the objects it visits: scope S, or SEALED at scope 4 (R364). -/
structure Walker where
  part : Nat
  asid : BitVec 16
  core : Nat
  user : Bool
  scope : BitVec 3
  kind : WalkKind
  deriving DecidableEq, Repr

def Walker.sealing (k : Walker) : Bool := k.kind == .seal
def Walker.intent (k : Walker) : Intent := { user := k.user }

/-- The header that a reference names, with its physical address (R33, R243). -/
def State.headerOf (s : State) (k : Walker) (v : BitVec 64) : State × Except (Code × BitVec 64) (Nat × BitVec 64) :=
  match s.walk k.part k.asid v k.intent with
  | (s, .error c) => (s, .error (c, v))
  | (s, .ok g) =>
    match (s.request k.part (g.at v) 8).fillFault (g.at v) 8 with
    | (s, some c) => (s, .error (c, v))
    | (s, none) =>
      let w := s.peek64 (g.at v)
      if s.tagAt (g.at v) && bits w 0 4 == 15 then (s, .ok (g.at v, w)) else (s, .error (cTAG, v))

/-- The walk does not queue this object: SEALED, or PUBLISHED at S or wider (R365). -/
def Walker.skips (k : Walker) (w : BitVec 64) : Bool :=
  match bits w 4 2 with
  | 2 => true
  | 1 => decide (k.scope.toNat ≤ bits w 6 3)
  | _ => false

/-- Nothing is left to do for a queued object or the root: SEAL freezes what is only PUBLISHED (R37). -/
def Walker.finished (k : Walker) (w : BitVec 64) : Bool := if k.sealing then bits w 4 2 == 2 else k.skips w

/-- A header read of the walk is an acquire at S, for the issuing core (R359, R366): not made when the mode traps a mismatch. -/
def State.skim (s : State) (k : Walker) (pa : Nat) : State × Bool := s.syncAccess k.part k.core k.scope pa

/-- The physical runs behind n bytes from va, page by page. -/
def State.runsOf (s : State) (k : Walker) : Nat → BitVec 64 → Nat → State × Except (Code × BitVec 64) (List (Nat × Nat))
  | 0, _, _ => (s, .ok [])
  | fuel + 1, va, n =>
    if n = 0 then (s, .ok [])
    else match s.walk k.part k.asid va k.intent with
      | (s, .error c) => (s, .error (c, va))
      | (s, .ok g) =>
        let m := Nat.min n (g.size - va.toNat % g.size)
        match s.runsOf k fuel (va + BitVec.ofNat 64 m) (n - m) with
        | (s, .error e) => (s, .error e)
        | (s, .ok rs) => (s, .ok ((g.at va, m) :: rs))

/-- The references in a run, in ascending order: tagged words whose low bits are 0. -/
def State.refsIn (s : State) (r : Nat × Nat) : List (BitVec 64) :=
  (s.tags.filter (fun t => t.2 && decide (r.1 ≤ 8 * t.1 ∧ 8 * t.1 < r.1 + r.2))).filterMap (fun t =>
    let v := s.peek64 (8 * t.1)
    if bits v 0 4 = 0 ∧ v ≠ 0 then some v else none)

/-- An uncorrectable line among the runs. -/
def State.runsFault (s : State) (p : Nat) : List (Nat × Nat) → State × Option Code
  | [] => (s, none)
  | r :: rs => match (s.request p r.1 r.2).fillFault r.1 r.2 with
    | (s, some c) => (s, some c)
    | (s, none) => s.runsFault p rs

/-- The lines of runs, as a record lists them. -/
def runLines (rs : List (Nat × Nat)) : List (Nat × Nat) := rs.map (fun r => (r.1 / 128, (r.1 + r.2 - 1) / 128 - r.1 / 128 + 1))

/-- One object is published as one step at its header's home (R364); in SEAL's walk its seal record takes the place of its privacy
record. The header write is a release at S (R366). -/
def State.publishObject (s : State) (k : Walker) (pa : Nat) (w : BitVec 64) (rs : List (Nat × Nat)) : State :=
  let (st, sc) := if k.sealing then (2, 4) else (1, k.scope.toNat)
  let w' := (w &&& ~~~(0x1F0#64)) ||| BitVec.ofNat 64 (sc * 64 + st * 16)
  let s := (s.request k.part pa 8).pokeTagged pa w' true
  let rest := s.records.filter (fun r => r.header ≠ pa)
  let r : LineRecord := { header := pa, owner := bits w 48 8, sealed := true, lines := runLines rs }
  { s with records := if k.sealing then rest ++ [r] else rest }.recordScope (pa / 128) (BitVec.ofNat 3 sc) (s.domainIndex, k.core)

/-- The Crock that keeps an object's privacy record has an uncorrectable error there, which its removal meets (R360, R413). -/
def State.privacyFails (s : State) (pa : Nat) : Bool := s.crockFails pa && s.records.any (fun r => r.header == pa && !r.sealed)

/-- Visit the object a reference names; its references follow. Before SEAL freezes an object, what has been stored to its lines is performed
(R363). -/
def State.visit (s : State) (k : Walker) (v : BitVec 64) : State × Except (Code × BitVec 64) (List (BitVec 64)) :=
  match s.headerOf k v with
  | (s, .error e) => (s, .error e)
  | (s, .ok (pa, w)) =>
    if bits w 4 2 = 0 ∧ bits w 48 8 ≠ k.core then (s, .error (cPRIVATE_ACCESS, v))
    else match s.skim k pa with
      | (s, false) => (s, .error (cSCOPE_MISMATCH, v))
      | (s, true) =>
        let n := 16 * bits w 16 32
        match s.runsOf k (n / 65536 + 2) v n with
        | (s, .error e) => (s, .error e)
        | (s, .ok rs) =>
          match (if k.sealing then s.flushLate (runLines rs) else s).runsFault k.part rs with
          | (s, some c) => (s, .error (c, v))
          | (s, none) =>
            if s.privacyFails pa then (s.clearCrock pa, .error (cPOISON, v))
            else
            let refs := rs.flatMap s.refsIn
            (s.publishObject k pa w rs, .ok refs)

/-- Whether a reference's header stands and says `stop`; the walk has read it then. What it cannot read it finds out when it visits. -/
def State.glance (s : State) (k : Walker) (stop : BitVec 64 → Bool) (v : BitVec 64) : State × Bool :=
  match s.headerOf k v with
  | (s', .ok (pa, w)) => (match s'.skim k pa with
    | (t, true) => (t, stop w)
    | (_, false) => (s, false))
  | (_, .error _) => (s, false)

/-- Queue references in turn, leaving out what is queued already and what need not be visited. -/
def State.queueRefs (s : State) (k : Walker) : List (BitVec 64) → List (BitVec 64) → State × List (BitVec 64)
  | q, [] => (s, q)
  | q, v :: vs =>
    if q.contains v then s.queueRefs k q vs
    else match s.glance k k.skips v with
      | (s, true) => s.queueRefs k q vs
      | (s, false) => s.queueRefs k (q ++ [v]) vs

/-- The queue from the first object on for which something is left to do. -/
def State.unfinished (s : State) (k : Walker) : List (BitVec 64) → State × List (BitVec 64)
  | [] => (s, [])
  | v :: vs =>
    match s.glance k k.finished v with
    | (s, true) => s.unfinished k vs
    | (s, false) => (s, v :: vs)

/-- The walk, with n more objects to visit; when it stops, the fault and what is left of the queue. -/
def State.walkObjects (s : State) (k : Walker) : Nat → List (BitVec 64) → State × Option (Option (Code × BitVec 64) × List (BitVec 64))
  | 0, q =>
    match s.unfinished k q with
    | (s, []) => (s, none)
    | (s, v :: vs) => (s, some (none, v :: vs))
  | n + 1, q =>
    match s.unfinished k q with
    | (s, []) => (s, none)
    | (s, v :: vs) =>
      match s.visit k v with
      | (s, .error e) => (s, some (some e, v :: vs))
      | (s, .ok refs) =>
        let (s, q) := s.queueRefs k vs refs
        s.walkObjects k n q

/-- The entry of the partition's table from which a later walk of the same root, at S or wider, goes on (R395). -/
def State.takeWalk (s : State) (k : Walker) (root : BitVec 64) : State × List (BitVec 64) :=
  let x := s.part k.part
  match x.walks.find? (fun (w : WalkRecord) => w.root == root && decide (w.scope.toNat ≤ k.scope.toNat)) with
  | some w => (s.setPart k.part { x with walks := x.walks.filter (· ≠ w) }, w.queue)
  | none => (s, [])

/-- The most objects one execution visits (R366). -/
def walkLimit : Nat := 65536

/-- The bank's record of the same instruction, root and scope, from which a walk goes on (R394). -/
def State.resumed (s : State) (b : Nat) (k : Walker) (root : BitVec 64) : Option (List (BitVec 64)) :=
  match (s.bank b).walk with
  | some w => if w.kind = k.kind ∧ w.root = root ∧ w.scope = k.scope then some w.queue else none
  | none => none

/-- The queue a walk starts with, and whether a record gives it: that of the bank's record (R394), else the root behind what the partition's table
holds for it (R395). -/
def State.walkStart (s : State) (b : Nat) (k : Walker) (root : BitVec 64) : State × Bool × List (BitVec 64) :=
  match s.resumed b k root with
  | some q => (s, true, q)
  | none => match s.takeWalk k root with
    | (s, []) => (s, false, [root])
    | (s, q) => (s, true, q ++ [root])

/-- The physical address under which a Crock keeps a walk's record, that of its root, when it has an uncorrectable error there (R413, log 51). -/
def State.walkError (s : State) (k : Walker) (root : BitVec 64) : Option Nat :=
  match (s.walk k.part k.asid root k.intent).2 with
  | .ok g => if s.crockFails (g.at root) then some (g.at root) else none
  | .error _ => none

/-- Walk from a queue: none when the walk has ended; else the fault that stops it, with a walk record left standing in the bank (R394). A page
fault of the walk is one of the bank through no handle. -/
def State.walkOn (s : State) (b : Nat) (k : Walker) (root : BitVec 64) (q : List (BitVec 64)) : State × Option Trap :=
  match s.walkObjects k walkLimit q with
  | (s, none) => (s.setBank b { (s.bank b) with walk := none }, none)
  | (s, some (e, q)) =>
    let s := s.setBank b { (s.bank b) with walk := some { kind := k.kind, root := root, scope := k.scope, queue := q } }
    (s, some (match e with
      | none => precise cWALK_OVERFLOW root
      | some (c, v) => { precise c v with page := if c = cPAGE then some 0 else none }))

/-- publish(root, S) for bank b. A walk that goes on from a record reads it at the Crock: an error there is POISON, and the record is lost
(R387, R413, log 51). -/
def State.publish (s : State) (b : Nat) (k : Walker) (root : BitVec 64) : State × Option Trap :=
  match s.walkStart b k root with
  | (s, false, q) => s.walkOn b k root q
  | (s, true, q) =>
    match s.walkError k root with
    | some a => ((s.clearCrock a).setBank b { (s.bank b) with walk := none }, some (precise cPOISON root))
    | none => s.walkOn b k root q

/-- The walker of the issuing bank's unit. -/
def State.walker (s : State) (u : WorkUnit) (scope : BitVec 3) (kind : WalkKind) : Walker :=
  { part := u.part, asid := u.asid, core := s.coreNo, user := decide (s.cur.level = 0), scope := scope, kind := kind }

/-- Publish from the issuing bank, then go on. A walk whose fault would leave a new walk record waits, all of it still to do, while the Crock of
the publishing core's die has no room for the record (R387, log 51). -/
def State.publishing (s : State) (kind : WalkKind) (scope : BitVec 3) (root : BitVec 64) (k : State → Res) : Res :=
  match s.cur.unit with
  | none => .ok s
  | some u =>
    match s.publish s.ib (s.walker u scope kind) root with
    | (t, none) => k t
    | (t, some f) => if (s.cur.walk.isNone && t.cur.walk.isSome) && s.crockFullAt (dieOf s.coreNo) u.part then .wait s else .trap t f

/-- A publishing instruction that walks nothing drops the bank's walk record (R394). -/
def State.dropWalk (s : State) : State := s.setCur { s.cur with walk := none }

/-- The release store of PUB: the object checks of R362, then the reference with its tag (R393). -/
def State.storeRef (s : State) (a : Place) (v : BitVec 64) (c : BitVec 3) (w : ReleaseBy := releaseNow) : Res :=
  s.writeCheck a 8 (fun s => w s a (toBytes 8 v.toNat) (v != 0) c)

/-- PUB up to its release at a place, with the reference (R393). -/
def State.pubWalk (s : State) (r : BitVec 6) (h : BitVec 4) (x : BitVec 6) (c : BitVec 3) (k : State → Place → BitVec 64 → Res) : Res :=
  s.withRegs [r, x] (
    let v := s.reg r
    s.withAccess h (s.reg x) 8 true (fun a =>
      if !a.spad && decide (memKind a.pa = MemKind.host) then .trap s (precise cPERM a.va)
      else s.afterAdds (
        if v = 0 then k s.dropWalk a v
        else if bits v 0 4 ≠ 0 then .trap s (precise cTAG v)
        else s.referent v (fun s _ _ => s.publishing .pub c v (fun s => k s a v)))))

/-- PUB (R393), a release (R364). -/
def execPub (r : BitVec 6) (h : BitVec 4) (x : BitVec 6) (c : BitVec 3) (s : State) : Host.Outcome State Fault Refusal :=
  s.finish (.pub r h x c) (s.pubWalk r h x c (fun s a v => s.storeRef a v c))

/-! ## Stores that reach the L1 later (R428) -/

/-- The meanings of an issue whose stores reach the L1 later: the scalar stores, STREF, OBJINIT, and the stores of STREL and PUB. -/
def lateExec (ex : Exec) : Exec := fun i s =>
  match i with
  | .stb r h o => s.finish i (s.withRegs [r] (s.storeReg r h (scaled o 1) 1 storeLater))
  | .sth r h o => s.finish i (s.withRegs [r] (s.storeReg r h (scaled o 2) 2 storeLater))
  | .stw r h o => s.finish i (s.withRegs [r] (s.storeReg r h (scaled o 4) 4 storeLater))
  | .std r h o => s.finish i (s.withRegs [r] (s.storeReg r h (scaled o 8) 8 storeLater))
  | .stx r h x z => s.finish i (s.withRegs [r, x] (s.storeReg r h (s.reg x) (2 ^ z.toNat) storeLater))
  | .stref r h o => s.finish i (s.withRegs [r] (s.storeReference r h (scaled o 8) storeLater))
  | .objinit r h o => s.finish i (s.withRegs [r] (s.withAccess h (scaled o 16) 16 true (fun a => s.initObject a h (s.reg r) storeLater)))
  | .strel r h x c z => s.finish i (s.withRegs [r, x] (s.storeRelease r h x c (2 ^ z.toNat) releaseLater))
  | .pub r h x c => s.finish i (s.pubWalk r h x c (fun s a v => s.storeRef a v c releaseLater))
  | i => ex i s

end Sys2Proof.Machine
end

