-- ==== Sys2Proof/Machine/Creamery.lean ====
section
/-! DEFINITION. The Creamery (R289-R315): shapes and spans, pools, eviction, the node instructions, node copies, and what passes between
devices. -/

namespace Sys2Proof.Machine

/-! ## Shapes and spans (R290, R294, R304) -/

/-- B of a block-size code (R295). -/
def blockTokens (bcode : BitVec 2) : Nat := 4 * 2 ^ bcode.toNat

/-- Heads in one page (R290). -/
def headsPerPage (shape : BitVec 32) (B : Nat) : Nat := 65408 / (B * shapeD shape * fmtBits (shapeFmt shape) / 8)

/-- P: pages per layer and kind. -/
def pagesPer (shape : BitVec 32) (B : Nat) : Nat := ceilDiv (shapeH shape) (headsPerPage shape B)

/-- KV pages of a node: 2 × L × P. -/
def pageCount (shape : BitVec 32) (B : Nat) : Nat := 2 * shapeL shape * pagesPer shape B

/-- The shape is usable (R290). -/
def shapeUsable (shape : BitVec 32) (B : Nat) : Bool :=
  decide (1 ≤ shapeFmt shape ∧ shapeFmt shape ≤ 3) && shapeD shape != 0 && headsPerPage shape B != 0
    && decide (pageCount shape B ≤ 8160)

/-- A node and its ancestors, the node first; none when an ancestor's record is gone. -/
def State.chain (s : State) : Nat → Nat → Option (List (Nat × Node))
  | 0, _ => none
  | fuel + 1, r =>
    match s.node r with
    | none => none
    | some n =>
      match n.parent with
      | none => some [(r, n)]
      | some p => match s.chain fuel p with
        | some c => some ((r, n) :: c)
        | none => none

/-- The chain of a node, as deep as its record says. -/
def State.lineage (s : State) (r : Nat) (n : Node) : Option (List (Nat × Node)) := s.chain (n.depth.toNat + 1) r

/-- The end of the span of the first node of a chain (R304). -/
def spanEnd (c : List (Nat × Node)) : Nat := (c.map (fun x => blockTokens x.2.bcode)).foldl (· + ·) 0

/-- The ancestor whose span holds an offset, with the start of its span. -/
def coveringNode : List (Nat × Node) → Nat → Option (Nat × Node × Nat)
  | [], _ => none
  | x :: rest, o => if spanEnd rest ≤ o then some (x.1, x.2, spanEnd rest) else coveringNode rest o

/-- Physical address of element (head, token, x) of a layer and kind of a node (R294). -/
def Node.element (n : Node) (layer kind head token x : Nat) : Nat :=
  let B := blockTokens n.bcode
  let hp := headsPerPage n.shape B
  let page := (2 * layer + kind) * pagesPer n.shape B + head / hp
  n.pages.getD page 0 + 128 + (((head % hp) * B + token) * shapeD n.shape + x) * fmtBits (shapeFmt n.shape) / 8

/-! ## Pools (R289) -/

/-- A tier address the partition has now and would not have. -/
def withdrawn (x y : Partition) (pa : Nat) : Bool :=
  decide (memKind pa = .tier) && x.grants (pa - tierBase) && !y.grants (pa - tierBase)

def inGroup (g : Nat) (pa : Nat) : Bool := isHbm pa && pa / 2 ^ 33 == g

/-- What a command takes from a partition: the group that MOVE_GROUP moves, the tier addresses that APPLY withdraws (R59, R64). -/
def PartCommand.loses (c : PartCommand) (p pa : Nat) : Bool :=
  match c.group, c.apply, c.old with
  | some g, _, _ => decide (c.src = some p) && inGroup g pa
  | none, some (q, y), some (_, x) => decide (q = p) && withdrawn x y pa
  | _, _, _ => false

/-- A frame that a running command takes from the partition is allocated no more (R64). -/
def State.frameLeaving (s : State) (p f : Nat) : Bool :=
  match s.mgmt.running with
  | some c => !c.gaveUp && c.loses p f
  | none => false

/-- Frames of a pool of a partition that are the partition's and have memory behind them, whatever they hold. -/
def State.poolFrames (s : State) (p tier : Nat) : List Nat :=
  let x := s.part p
  let base := (if tier = 1 then bits x.kv1Base 21 31 else bits x.kv2Base 21 31) * 2 ^ 21
  let n := (if tier = 1 then x.kv1Size else x.kv2Size).toNat * 32
  let kind := if tier = 1 then MemKind.hbm else MemKind.tier
  ((List.range n).map (fun i => base + 65536 * i)).filter (fun f =>
    memKind f == kind && s.tableHeld p f && s.behind f && !s.frameLeaving p f)

/-- A frame that holds a Creamery object. -/
def State.frameUsed (s : State) (f : Nat) : Bool :=
  s.nodes.any (fun (x : Nat × Option Node) => match x.2 with | some n => n.usesFrame x.1 f | none => false)

/-- A frame of the partition that holds node records. -/
def State.recordFrame (s : State) (p f : Nat) : Bool :=
  s.nodes.any (fun (x : Nat × Option Node) => x.1 / 65536 * 65536 == f && (match x.2 with | some n => n.part == p | none => false))

/-- A choice among n things the spec leaves open (log 5). -/
def State.choose (s : State) (n : Nat) : State × Nat := ({ s with freeNo := s.freeNo + 1 }, Config.poolChoice s.freeNo % n)

/-- Record addresses of a frame that hold no record. -/
def State.freeSlots (s : State) (f : Nat) : List Nat :=
  ((List.range 512).map (fun i => f + 128 * i)).filter (fun a => (s.node a).isNone)

/-- A place for a record in a pool: in a frame that holds records already, or in a free one. -/
def State.recordPlace (s : State) (p tier : Nat) : State × Option Nat :=
  let fs := (s.poolFrames p tier).filter (fun f => !s.frameUsed f || (s.recordFrame p f && !(s.freeSlots f).isEmpty))
  if fs.isEmpty then (s, none)
  else
    let (s, k) := s.choose fs.length
    let slots := s.freeSlots (fs.getD k 0)
    let (s, i) := s.choose slots.length
    (s, some (slots.getD i 0))

/-- Take n of the frames, chosen freely. -/
def State.takeFrames (s : State) : Nat → List Nat → State × List Nat
  | 0, _ => (s, [])
  | n + 1, fs =>
    let (s, k) := s.choose fs.length
    let f := fs.getD k 0
    let (s, more) := s.takeFrames n (fs.erase f)
    (s, f :: more)

/-- n free frames of a pool besides one that a record takes; none when there are too few. -/
def State.framesFor (s : State) (p tier n : Nat) (besides : Nat) : State × Option (List Nat) :=
  let fs := (s.poolFrames p tier).filter (fun f => !s.frameUsed f && f != besides)
  if fs.length < n then (s, none)
  else
    let (s, l) := s.takeFrames n fs
    (s, some l)

/-- A record with n frames, without evicting. -/
def State.placeNode (s : State) (p tier n : Nat) : State × Option (Nat × List Nat) :=
  match s.recordPlace p tier with
  | (s, none) => (s, none)
  | (s, some r) =>
    match s.framesFor p tier n (r / 65536 * 65536) with
    | (s, some l) => (s, some (r, l))
    | (s, none) => (s, none)

/-! ## Writing a node's objects (R35, R293, R294) -/

/-- n lines from an address on become zero, with tags clear; they are written whole. -/
def State.zeroLines (s : State) (pa n : Nat) : State :=
  let lines := (List.range n).map (pa / 128 + ·)
  let s := { s with
    churn := invalidateFrames [pa / 65536] s.churn
    banks := hitMonitors lines s.banks
    scrubs := changeScrubs lines s.scrubs
    mem := SMap.clear pa (pa + 128 * n) s.mem
    tags := SMap.clear (pa / 8) (pa / 8 + 16 * n) s.tags
    badSectors := SMap.clear (pa / 32) (pa / 32 + 4 * n) s.badSectors
    softSectors := SMap.clear (pa / 32) (pa / 32 + 4 * n) s.softSectors
    written := setTags s.written true [pa / 65536] }
  (s.sealLines [] lines).clearPoison lines

/-- Lines that answer a write of the whole line with MDUE, which loses it (R270, log 52). -/
def State.refusedLines (s : State) : List Nat → State × List Nat
  | [] => (s, [])
  | l :: ls =>
    let (s, c) := s.lineFault l [] true
    let (s, rest) := s.refusedLines ls
    (s, if c.isSome then l :: rest else rest)

/-- All bytes of a frame, which has these lines, become zero, but for the lines that cannot be written. -/
def State.zeroAll (s : State) (f : Nat) (lines : List Nat) : State :=
  let (s, bad) := s.refusedLines lines
  let s := if isHbm f then s.wakeRegions [f / 2 ^ 20] else s
  if bad.isEmpty then s.zeroLines f lines.length
  else (lines.filter (fun l => !bad.contains l)).foldl (fun (s : State) l => s.zeroLines (128 * l) 1) s

/-- The same of a frame taken into use, after what has been stored to it (R361, R363). -/
def State.zeroFrame (s : State) (f : Nat) : State := (s.flushLate [(f / 128, 512)]).zeroAll f ((List.range 512).map (f / 128 + ·))

/-- The record of lines of an object: private to its owner, or sealed. -/
def State.coverObject (s : State) (sealed : Bool) (owner pa n : Nat) : State :=
  let r : LineRecord := { header := pa, owner := owner, sealed := sealed, lines := [(pa / 128, n / 128)] }
  { s with records := s.records.filter (fun x => x.header ≠ pa) ++ [r],
           scopes := s.scopes.filter (fun x => decide (x.1 < pa / 128 ∨ pa / 128 + n / 128 ≤ x.1)) }

/-- Set the tags of consecutive words. -/
def State.tagWords (s : State) (pa : Nat) : Nat → State
  | 0 => s
  | n + 1 => (s.setTag pa true).tagWords (pa + 8) n

/-- Write the header and record of a node, a request of the partition as every write of its objects is (R65). -/
def State.buildRecord (s : State) (r : Nat) (n : Node) (sealed : Bool) : State :=
  let s := (s.request n.part r 128).putHeader r n.part n.owner 8 (if sealed then 4 else 0) (if sealed then 2 else 0) 0xFFF0
  (s.writeNode r n).coverObject sealed n.owner r 128

/-- The words of a map after its header: page count, shape, tokens and page references (R293). -/
def Node.mapCells (n : Node) : List (Nat × Byte) :=
  cellsAt (n.map + 16) (toBytes 4 n.pages.length ++ toBytes 4 n.shape.toNat)
    ++ cellsAt (n.map + 32) (n.tokens.flatMap (fun t => toBytes 4 t.toNat))
    ++ cellsAt (n.map + 256) (n.pages.flatMap (fun f => toBytes 8 (windowBase + f)))

/-- Build the map and the pages of a node; `data` gives what each page holds after its header. -/
def State.buildObjects (s : State) (n : Node) (sealed : Bool) (data : List (List (Nat × Byte))) : State :=
  let (sc, st) := if sealed then (4, 2) else (0, 0)
  let s := (n.map :: n.pages).foldl (fun (s : State) f =>
    ((s.request n.part f 65536).zeroFrame f).putHeader f n.part n.owner 4096 sc st 0xFFF1) s
  let s := (s.store n.mapCells).tagWords (n.map + 256) n.pages.length
  let s := (n.pages.zip data).foldl (fun (s : State) x => s.store (x.2.map (fun c => (x.1 + c.1, c.2)))) s
  (n.map :: n.pages).foldl (fun (s : State) f => s.coverObject sealed n.owner f 65536) s

/-! ## Eviction (R308, R310, R311) -/

/-- Heads, tokens and first offset of a node copy. -/
def QEntry.heads (e : QEntry) : Nat := bits (fieldOf e.tmpl 6) 8 8 + 1
def QEntry.tokens (e : QEntry) : Nat := bits (fieldOf e.tmpl 7) 0 12 + 1
def QEntry.firstToken (e : QEntry) : Nat := (uniformVal (fieldOf e.tmpl 3) e.vals 3).toNat

/-- The nodes of a chain whose spans meet the copy's offsets, the node itself first (R304). -/
def QEntry.reads? (e : QEntry) : List (Nat × Node) → List (Nat × Node)
  | [] => []
  | x :: rest =>
    if spanEnd rest < e.firstToken + e.tokens ∧ e.firstToken < spanEnd (x :: rest) then x :: e.reads? rest else e.reads? rest

/-- The same nodes as a copy that starts takes them, with the starts of their spans. -/
def QEntry.spanNodes (e : QEntry) : List (Nat × Node) → List SpanNode
  | [] => []
  | x :: rest =>
    if spanEnd rest < e.firstToken + e.tokens ∧ e.firstToken < spanEnd (x :: rest) then
      { record := x.1, gen := x.2.gen, start := spanEnd rest } :: e.spanNodes rest
    else e.spanNodes rest

/-- A node copy under way reads the node in record r (R304, R311). -/
def QEntry.readsNode (e : QEntry) (r : Nat) : Bool := e.copying && isNodeCopy (wopOf e.tmpl) && e.nodes.any (fun x => x.record == r)

/-- Something reads the pages of a node. Forwarded reads are answered whole, so none is under way between steps. -/
def State.nodeRead (s : State) (r : Nat) : Bool :=
  s.clusters.any (fun (x : Nat × Cluster) => (x.2.qL ++ x.2.qS).any (fun e => e.readsNode r))

/-- A node may be chosen for eviction in a tier. -/
def Node.candidate (n : Node) (now : BitVec 64) (tier : Nat) : Bool :=
  (match n.state with
    | .sealed => n.tier.toNat == tier
    | .remote => tier == 1
    | _ => false) && n.refs == 0 && decide (n.leaseExpiry ≤ now)

/-- The order of R310. -/
def Node.goesBefore (a b : Node) : Bool :=
  if a.cls ≠ b.cls then decide (a.cls < b.cls)
  else if a.lastRelease ≠ b.lastRelease then decide (a.lastRelease < b.lastRelease)
  else decide (a.name < b.name)

/-- The first of some nodes in the eviction order. -/
def firstOf : List (Nat × Node) → Option (Nat × Node)
  | [] => none
  | x :: xs => match firstOf xs with
    | some y => some (if y.2.goesBefore x.2 then y else x)
    | none => some x

def State.candidates (s : State) (p tier : Nat) : List (Nat × Node) :=
  s.nodes.filterMap (fun (x : Nat × Option Node) => match x.2 with
    | some n => if n.part = p ∧ n.candidate s.now tier then some (x.1, n) else none
    | none => none)

/-- Bytes of a frame after its header that are not zero, by offset. -/
def State.frameCells (s : State) (f : Nat) : List (Nat × Byte) :=
  (s.mem.filter (fun c => decide (f + 16 ≤ c.1 ∧ c.1 < f + 65536))).map (fun c => (c.1 - f, c.2))

/-- An agent reads a whole frame: what it meets in its lines (R270, R271); afterwards those that answered with a fault are poisoned. -/
def State.readFrame (s : State) (f : Nat) : State :=
  (List.range 512).foldl (fun (s : State) i =>
    (s.lineFault (f / 128 + i) (s.readSectors (f / 128 + i) [0, 1, 2, 3]) false).1) s

/-- Lines of a frame that are poisoned, by their number in it. -/
def State.poisonedIn (s : State) (f : Nat) : List Nat := (List.range 512).filter (fun i => (s.lineInfo (f / 128 + i)).poison)

/-- Lines of a frame that take data which was poisoned where it was read are poisoned (R271). -/
def State.poisonLines (s : State) (f : Nat) (lines : List Nat) : State :=
  lines.foldl (fun (s : State) i => s.setLine (f / 128 + i) { (s.lineInfo (f / 128 + i)) with poison := true }) s

/-- A node of tier 1 is copied to pool 2 at new addresses, where it is SEALED; its old record and frames are freed (R300, R311). -/
def State.demote (s : State) (r : Nat) (n : Node) (r' : Nat) (frames : List Nat) : State :=
  match frames with
  | [] => s
  | m :: pages =>
    let s := (n.map :: n.pages).foldl (fun (s : State) f => (s.request n.part f 65536).readFrame f) s
    let data := n.pages.map s.frameCells
    let bad := (n.map :: n.pages).map s.poisonedIn
    let n' : Node := { n with map := m, pages := pages, tier := 2, state := .sealed, gen := s.gen r' }
    let s := (s.buildRecord r' n' true).buildObjects n' true data
    let s := ((m :: pages).zip bad).foldl (fun (s : State) x => s.poisonLines x.1 x.2) s
    let s := s.releaseNode r n
    { s with index := s.index.map (fun x => if x.2 = r then (x.1, r') else x) }

/-- The end of an eviction, once nothing reads the node (R311, step 3). -/
def State.endEviction (s : State) (r : Nat) : State :=
  match s.node r with
  | none => s
  | some n =>
    if n.state ≠ .evicting then s
    else if n.tier = 1 ∧ n.cls ≠ 0 then
      match s.placeNode n.part 2 (n.pages.length + 1) with
      | (s, some (r', frames)) => s.demote r n r' frames
      | (s, none) => s.dropNode r
    else s.dropNode r

/-- Evict one node: a stub goes at once; another becomes EVICTING, and goes as soon as nothing reads it (R300, R311). -/
def State.evict (s : State) (r : Nat) (n : Node) : State :=
  if n.state = .remote then s.dropNode r
  else
    let s := s.setNode r { n with state := .evicting }
    if s.nodeRead r then s else s.endEviction r

/-- Nodes that are EVICTING and that nothing reads any more complete their eviction. -/
def State.endEvictions (s : State) : State :=
  (s.nodes.filter (fun (x : Nat × Option Node) => match x.2 with
    | some n => n.state == NodeState.evicting && !s.nodeRead x.1
    | none => false)).foldl (fun (s : State) x => s.endEviction x.1) s

/-- What an allocation comes to: a record's address with frames, nothing, or a wait for an eviction. -/
inductive Room where
  | got (r : Nat) (frames : List Nat)
  | none
  | waits
  deriving DecidableEq, Repr

/-- An eviction from a tier of a partition has not ended. -/
def State.evicting (s : State) (p tier : Nat) : Bool :=
  s.nodes.any (fun (x : Nat × Option Node) => match x.2 with
    | some n => n.part == p && n.tier.toNat == tier && n.state == NodeState.evicting
    | none => false)

/-- Allocate a record with n frames in a tier, evicting one node after another until they fit or no candidate is left (R311). -/
def State.allocate (s : State) (p tier n : Nat) : Nat → State × Room
  | 0 => (s, .none)
  | fuel + 1 =>
    match s.placeNode p tier n with
    | (s, some x) => (s, .got x.1 x.2)
    | (s, none) =>
      if s.evicting p tier then (s, .waits)
      else match firstOf (s.candidates p tier) with
        | some (r, m) => (s.evict r m).allocate p tier n fuel
        | none => (s, .none)

/-- Enough turns for every node there is. -/
def State.nodeFuel (s : State) : Nat := s.nodes.length + 1

/-! ## Leases and the registers (R295, R299, R308) -/

/-- σ of a partition (R296). -/
def State.sigma (s : State) (p : Nat) : BitVec 64 := s.nameKey p ^^^ (s.part p).salt

/-- A node gets the default lease, unless it has a longer one (R301, R305, R313). -/
def State.leaseNode (s : State) (r : Nat) (ns : BitVec 64) : State :=
  match s.node r with
  | some n =>
    let t := s.now + ns
    s.setNode r { n with leaseExpiry := if n.leaseExpiry < t then t else n.leaseExpiry }
  | none => s

def State.defaultLease (s : State) (p : Nat) : BitVec 64 := BitVec.ofNat 64 (1000 * (s.part p).leaseDefault.toNat)

/-- A collision is counted (R295, R298). -/
def State.collide (s : State) (p : Nat) : State := s.setPart p { (s.part p) with collideCount := satInc (s.part p).collideCount }

def State.nodeRegister (s : State) (k : BitVec 3) (x : NodeReg) : State := s.setCur (s.cur.setN k.toNat x)

/-- The register's number as the datum of NODE (R401). -/
def nodeFault (k : BitVec 3) : Trap := precise cNODE (zx k)

/-- Continue with the node a register names; a root, an empty or a stale register raises NODE. -/
def State.withNode (s : State) (k : BitVec 3) (f : Nat → Node → Res) : Res :=
  match s.liveNode (s.cur.getN k.toNat) with
  | some (r, n) => f r n
  | none => .trap s (nodeFault k)

/-- NLEASE (R308). A node that is EVICTING takes the lease and the class as any other, which its eviction then loses or keeps with it
(R311 says only what it sees; log 37). -/
def execNlease (a : BitVec 6) (n : BitVec 3) (s : State) : Host.Outcome State Fault Refusal :=
  s.finish (.nlease a n) (s.withRegs [a] (s.withNode n (fun r x =>
    let v := s.reg a
    let x := if bit v 63 then { x with cls := v.extractLsb' 32 2 } else x
    .ok ((s.setNode r x).leaseNode r (BitVec.ofNat 64 (1000 * bits v 0 32))))))

/-- NREF_INC (R308), of an EVICTING node as well (log 37). -/
def execNrefInc (n : BitVec 3) (s : State) : Host.Outcome State Fault Refusal :=
  s.finish (.nrefInc n) (s.withNode n (fun r x =>
    if x.refs = BitVec.allOnes 32 then .trap s (nodeFault n) else .ok (s.setNode r { x with refs := x.refs + 1, raised := true })))

/-- NREF_DEC (R308), of an EVICTING node as well (log 37). -/
def execNrefDec (n : BitVec 3) (s : State) : Host.Outcome State Fault Refusal :=
  s.finish (.nrefDec n) (s.withNode n (fun r x => if x.refs = 0 then .trap s (nodeFault n) else .ok (s.decRefs r)))

/-! ## PFX (R301) -/

/-- What the home device of a name answers a probe: this device's own directory, or another device's, which an absent link makes a miss
(R30, R314). -/
def State.probed (s : State) (name : BitVec 128) : List DirEntry :=
  (if name.toNat % s.domainSize = s.domainIndex then s.directory else if s.linked then s.peerEntries else []).filter
    (fun e => e.key.name == name)

/-- The entry of a probe's answer that matches what is looked for (R298), or else one that collides with it. -/
def State.probe (s : State) (k : NameKey) : Option DirEntry :=
  match (s.probed k.name).find? (fun e => e.key == k) with
  | some e => some e
  | none => (s.probed k.name).head?

/-- The indexed node of a name. -/
def State.indexed (s : State) (name : BitVec 128) : Option (Nat × Node) :=
  match s.index.find? (fun x => x.1 == name) with
  | some x => (match s.node x.2 with | some n => some (x.2, n) | none => none)
  | none => none

/-- A REMOTE stub for a name in a record that has been allocated, a live child of its parent. R292 gives a stub no last_release and no class:
the model writes the time it is made and class 0, and both stay at its replication (log 37). -/
def State.makeStub (s : State) (p : Nat) (parent : Option Nat) (k : NameKey) (r : Nat) : State :=
  let depth := match parent with | some q => (match s.node q with | some x => x.depth + 1 | none => 1) | none => 1
  let n : Node := { part := p, owner := 0xFF, opener := 0, name := k.name, sigma := k.sigma, parent := parent, map := 0, pages := [],
                    depth := depth, state := .remote, tier := 0, test := k.test, bcode := k.bcode, shape := k.shape,
                    tokens := k.tokens, gen := s.gen r, lastRelease := s.now }
  let s := s.buildRecord r n true
  let s := match parent with
    | some q => (match s.node q with | some x => s.setNode q { x with refs := x.refs + 1, raised := true } | none => s)
    | none => s
  { s with index := s.index ++ [(k.name, r)] }

/-- What one block of PFX comes to: a node it takes, and whether that was by a probe; the end of the loop; a wait for an eviction. -/
inductive Taken where
  | node (r : Nat) (far : Bool)
  | stop
  | waits
  deriving DecidableEq, Repr

/-- Ask the home device of a name; `found` is the node this device has for it. -/
def State.pfxProbe (s : State) (p : Nat) (node : Option Nat) (k : NameKey) (found : Option Nat) : State × Taken :=
  match s.probe k with
  | none => (s, .stop)
  | some e =>
    if e.key ≠ k then (s.collide p, .stop)
    else if e.holders.isEmpty then (s, .stop)
    else match found with
      | some r => (s, .node r true)
      | none => match s.allocate p 1 0 s.nodeFuel with
        | (s, .got r _) => (s.makeStub p node k r, .node r true)
        | (s, .none) => (s, .stop)
        | (s, .waits) => (s, .waits)

/-- One block of PFX. -/
def State.pfxStep (s : State) (p : Nat) (fetch remote : Bool) (node : Option Nat) (k : NameKey) : State × Taken :=
  let ask := fetch && decide (1 < s.domainSize)
  match s.indexed k.name with
  | some (r, n) =>
    if s.nodeKey n ≠ k then (s.collide p, .stop)
    else if remote then (if ask then s.pfxProbe p node k (some r) else (s, .stop))
    else match n.state with
      | .sealed => (s, .node r false)
      | .remote => (s, if fetch then .node r false else .stop)
      | _ => (s, .stop)
  | none => if ask then s.pfxProbe p node k none else (s, .stop)

/-- The name and what goes with it of a child of a node, or of the root, with the block `tk`. -/
def State.childKey (s : State) (p : Nat) (node : Option Nat) (tk : List (BitVec 32)) : NameKey :=
  let x := s.part p
  let parent := match node with
    | some r => (match s.node r with | some n => n.name | none => 0)
    | none => rootName x.nameTest (s.sigma p)
  { name := childName x.nameTest (s.sigma p) parent tk, sigma := s.sigma p, bcode := x.kvBlockTokens, test := x.nameTest,
    parent := parent, shape := x.kvShape.extractLsb' 0 32, tokens := tk }

/-- Little-endian 32-bit words of bytes. -/
def wordsOfBytes (bs : List Byte) : List (BitVec 32) := (symbolsOf bs).map (BitVec.ofNat 32)

/-- How the loop of PFX ends: the last node taken and the tokens covered, an uncorrectable codeword, or a wait. -/
inductive PfxEnd where
  | at (node : Option Nat) (m : Nat)
  | poison (off : Nat)
  | waits
  deriving DecidableEq, Repr

/-- The loop of PFX, n blocks of B tokens from an h0 offset on: each block's tokens are read in its turn. -/
def State.pfxLoop (s : State) (p B : Nat) (fetch remote : Bool) (node : Option Nat) (m o : Nat) : Nat → State × PfxEnd
  | 0 => (s, .at node m)
  | n + 1 =>
    match s.curCore.gather ((List.range (4 * B)).map (o + ·)) with
    | (c, .error x) => (s.setCurCore c, .poison x)
    | (c, .ok bs) =>
      match (s.setCurCore c).pfxStep p fetch remote node (s.childKey p node (wordsOfBytes bs)) with
      | (s, .stop) => (s, .at node m)
      | (s, .waits) => (s, .waits)
      | (s, .node r far) =>
        (s.leaseNode r (s.defaultLease p)).pfxLoop p B fetch (remote || far) (some r) (m + B) (o + 4 * B) n

/-- What a node register holds for a node. -/
def State.nameOf (s : State) (r : Nat) : NodeReg := .node r (s.gen r)

/-- PFX (R301). -/
def execPfx (n : BitVec 3) (a : BitVec 6) (b : BitVec 6) (r : BitVec 1) (s : State) : Host.Outcome State Fault Refusal :=
  s.finish (.pfx n a b r) (s.withRegs [a, b] (
    let o := s.reg a
    let count := (s.reg b).toNat
    if o.toNat % 4 ≠ 0 then .trap s (precise cALIGN o)
    else if spadBytes < o.toNat + 4 * count then .trap s (precise cHANDLE_BOUNDS o)
    else
      let B := blockTokens (s.part s.partNo).kvBlockTokens
      match s.pfxLoop s.partNo B (r == 1) false none 0 o.toNat (count / B) with
      | (s, .poison x) => .trap s (precise cPOISON (offInfo x))
      | (s, .waits) => .wait s
      | (s, .at node m) =>
        let s := s.nodeRegister n (match node with | some r => s.nameOf r | none => .root (s.sigma s.partNo))
        .ok (s.setReg b (BitVec.ofNat 64 m))))

/-! ## NOPEN and NDROP (R302, R307) -/

/-- The refs step of NOPEN: the parent counts the child to come, and the bank remembers it (R302). -/
def State.countChild (s : State) (x : NodeReg) (r : Nat) (n : Node) : State :=
  (s.setNode r { n with refs := n.refs + 1, raised := true }).setCur { s.cur with opening := some x }

/-- Open a child of a node that counts it already, or of a root, in the issuing unit. It waits for an eviction, and while a Crock has no room
for a privacy record (R387). -/
def State.openNode (s : State) (u : WorkUnit) (parent : Option (Nat × Node)) (d p : BitVec 3) : Res :=
  let x := s.part u.part
  let shape := x.kvShape.extractLsb' 0 32
  let pages := pageCount shape (blockTokens x.kvBlockTokens)
  match s.allocate u.part 1 (pages + 1) s.nodeFuel with
  | (s, .got r (m :: frames)) =>
    if (r :: m :: frames).any (s.noRoom u.part) then .wait s
    else match (r :: m :: frames).find? s.crockFails with
    | some a => .trap ((s.clearCrock a).undoOpen s.ib) (precise cPOISON (BitVec.ofNat 64 (windowBase + a)))
    | none =>
      let B := blockTokens x.kvBlockTokens
      let n : Node := { part := u.part, owner := s.coreNo, opener := u.id, name := Config.openName s.freeNo, sigma := s.sigma u.part,
                        parent := parent.map (·.1), map := m, pages := frames,
                        depth := (match parent with | some (_, q) => q.depth + 1 | none => 1), state := .opened, tier := 1,
                        test := x.nameTest, bcode := x.kvBlockTokens, shape := shape, tokens := List.replicate B 0, gen := s.gen r }
      let s := ({ s with freeNo := s.freeNo + 1 }.buildRecord r n false).buildObjects n false []
      .ok ((s.setCur { s.cur with opening := none }).nodeRegister d (s.nameOf r))
  | (s, .waits) => .wait s
  | (s, _) => .trap (s.undoOpen s.ib) (nodeFault p)

/-- NOPEN (R302). A root register names the partition's root: its child takes the σ in force, whatever σ the register was written with (the
rule leaves a register older than the salt or key open; log 38). -/
def execNopen (d : BitVec 3) (p : BitVec 3) (s : State) : Host.Outcome State Fault Refusal :=
  s.finish (.nopen d p) (
    match s.cur.unit with
    | none => .ok s
    | some u =>
      let x := s.part u.part
      let shape := x.kvShape.extractLsb' 0 32
      let usable := shapeUsable shape (blockTokens x.kvBlockTokens)
      let from' := s.cur.getN p.toNat
      match from' with
      | .root _ => if usable then s.openNode u none d p else .trap s (nodeFault p)
      | _ => s.withNode p (fun r n =>
          if s.cur.opening = some from' then s.openNode u (some (r, n)) d p
          else if !usable || n.shape != shape || n.state != .sealed || n.collided || n.refs == BitVec.allOnes 32 then
            .trap s (nodeFault p)
          else (s.countChild from' r n).openNode u (some (r, n)) d p))

/-- NDROP (R307). -/
def execNdrop (n : BitVec 3) (s : State) : Host.Outcome State Fault Refusal :=
  s.finish (.ndrop n) (
    let x := s.cur.getN n.toNat
    let unit := match s.cur.unit with | some u => u.id | none => 0
    if x = .empty then .trap s (nodeFault n)
    else
      let s := s.nodeRegister n .empty
      match s.liveNode x with
      | some (r, y) => if y.state = .opened ∧ y.opener = unit then .ok (s.dropNode r) else .ok s
      | none => .ok s)

/-! ## SEAL (R305, R306) -/

/-- The result of SEAL is leased and named by the register. -/
def State.sealResult (s : State) (p r : Nat) (d : BitVec 3) : Res :=
  let s := s.leaseNode r (s.defaultLease p)
  .ok (s.nodeRegister d (s.nameOf r))

/-- Freeze and publish a node by the Skimmer's walk, then give it its name; index it unless it has collided. Its last_release is the time of the
seal where its refs have never been above 0 (R292). -/
def State.sealNode (s : State) (u : WorkUnit) (r : Nat) (k : NameKey) (collided : Bool) (d : BitVec 3) : Res :=
  s.publishing .seal 4 (BitVec.ofNat 64 (windowBase + r)) (fun s =>
    match s.node r with
    | none => .ok s
    | some n =>
      let s := s.setNode r { n with name := k.name, tokens := k.tokens, state := .sealed, collided := collided
                                    lastRelease := if n.raised then n.lastRelease else s.now }
      let s := if collided then s.collide u.part
        else State.registerHolder { s with index := s.index.filter (fun x => decide (x.1 ≠ k.name)) ++ [(k.name, r)] } true
          { n with name := k.name, tokens := k.tokens }
      s.sealResult u.part r d)

/-- SEAL (R305). It waits for the bank's operations, and as a release for all the bank has on its way (R376 case c). A SEAL that only
deduplicates walks nothing and drops the bank's walk record (R394). An EVICTING node under the name counts as absent. -/
def execSeal (d : BitVec 3) (o : BitVec 3) (s : State) : Host.Outcome State Fault Refusal :=
  s.finish (.seal d o) (
    match s.cur.unit with
    | none => .ok s
    | some u => s.withNode o (fun r n =>
        let tokensAt := n.map + 32
        let B := blockTokens n.bcode
        if n.state ≠ .opened ∨ n.opener ≠ u.id then .trap s (nodeFault o)
        else if !s.enginesIdle || !s.wayClear then .wait s
        else if s.ingressWaits u.part tokensAt then .hold s .bucket
        else match (s.request u.part tokensAt (4 * B)).fillFault tokensAt (4 * B) with
          | (s, some c) => .trap s (precise c (BitVec.ofNat 64 (windowBase + tokensAt)))
          | (s, none) =>
            let tokens := wordsOfBytes (s.bytes tokensAt (4 * B))
            let k : NameKey := { s.nodeKey n with name := childName n.test n.sigma (s.parentName n) tokens, tokens := tokens }
            match s.indexed k.name with
            | some (r', e) =>
              if e.state = .sealed ∧ s.nodeKey e = k then (s.dropWalk.dropNode r).sealResult u.part r' d
              else if e.state = .evicting ∨ s.nodeKey e = k then s.sealNode u r k false d
              else s.sealNode u r k true d
            | none => s.sealNode u r k false d))

/-! ## NXL (R309) -/

/-- A VALID handle onto an address of the Creamery window. -/
def windowHandleOf (pa : Nat) (wi : Bool) : Handle :=
  { state := .valid, va := BitVec.ofNat 64 (windowBase + pa), frame := pa / 65536 * 65536, size := 65536, limit := 65536 - pa % 65536,
    perm := if wi then 3 else 1, wi := wi, nxl := true }

/-- NXL (R309). -/
def execNxl (h : BitVec 4) (a : BitVec 6) (b : BitVec 6) (n : BitVec 3) (s : State) : Host.Outcome State Fault Refusal :=
  s.finish (.nxl h a b n) (s.withRegs [a, b] (
    if (s.cur.handle h.toNat).state = .translating then .wait s
    else s.withNode n (fun r x =>
      let o := (s.reg a).toNat
      let sel := s.reg b
      match s.lineage r x with
      | none => .trap s (nodeFault n)
      | some c =>
        if spanEnd c ≤ o || (!bit sel 9 && (decide (shapeL x.shape ≤ bits sel 0 8) || decide (shapeH x.shape ≤ bits sel 16 8))) then
          .trap s (precise cHANDLE_BOUNDS (s.reg a))
        else match coveringNode c o with
          | none => .trap s (nodeFault n)
          | some (_, y, start) =>
            if y.state = .remote then .trap s (nodeFault n)
            else
              let pa := if bit sel 9 then y.map + 32 + 4 * (o - start)
                else y.element (bits sel 0 8) (bits sel 8 1) (bits sel 16 8) (o - start) 0
              .ok (s.setCur (s.cur.setHandle h.toNat (windowHandleOf pa (y.state == .opened && y.owner == s.coreNo)))))))

/-! ## NFETCH (R313) -/

/-- The status word of NFETCH. -/
def Node.fetchStatus (n : Node) (code : Code) : BitVec 64 :=
  n.depth ++ (0 : BitVec 8) ++ BitVec.ofNat 8 n.tier.toNat ++ BitVec.ofNat 8 n.state.code ++ code

/-- NODE with the other fields open (log 11). -/
def State.openStatus (s : State) : BitVec 64 :=
  (Config.openWord s.freeNo &&& 0xFFFFFFFF00FFFF00#64) ||| zx cNODE

/-- A node that is not REMOTE gives its status at once. -/
def Node.ownStatus (n : Node) : BitVec 64 := n.fetchStatus (if n.collided then cCOLLIDE else 0)

/-- NFETCH (R313). -/
def execNfetch (d : BitVec 6) (n : BitVec 3) (s : State) : Host.Outcome State Fault Refusal :=
  s.finish (.nfetch d n) (s.withRegs [d] (
    let x := s.cur.getN n.toNat
    match s.liveNode x with
    | none => .ok ({ s with freeNo := s.freeNo + 1 }.setReg d s.openStatus)
    | some (_, y) =>
      if y.state = .remote then
        .ok (s.setCur { (s.cur.markPending d) with nfetch := s.cur.nfetch ++ [{ reg := d.toNat, node := x }] })
      else s.result d y.ownStatus))

/-- The holders that the home device lists for a stub's name (R313, step 1). -/
def State.holdersOf (s : State) (n : Node) : List Nat := match s.probe (s.nodeKey n) with | some e => e.holders | none => []

/-- The stub in record r becomes SEALED, with the map and pages given and what a holder has sent (R313, step 4): the holder's record, map and pages
come over Yareno (R65), and a line that was poisoned at the holder is poisoned (R271). -/
def State.replicate (s : State) (r : Nat) (n : Node) (m : Nat) (pages : List Nat) (reply : RemoteNode) : State :=
  let n' := { n with map := m, pages := pages, state := .sealed, tier := 1 }
  let s := ((m :: pages).foldl (fun (s : State) _ => s.charge n.part peerBase 65536) (s.charge n.part peerBase 128)).setNode r n'
  let s := s.buildObjects n' true (reply.pages.map (fun cs => cs.filter (fun c => decide (128 ≤ c.1 ∧ c.1 < 65536))))
  let s := (cellsAt 0 pages).foldl (fun (s : State) x =>
    s.poisonLines x.2 ((reply.bad.filter (fun y => decide (y.1 = x.1 ∧ y.2 < 512))).map (·.2))) s
  (s.leaseNode r (s.defaultLease n.part)).registerHolder true n'

/-- A CPYN whose auto-fetch has failed completes with NODE (R304). -/
def failFetch : List QEntry → List QEntry
  | [] => []
  | e :: es => if wopOf e.tmpl = 0x06 ∧ e.queued then { e with vals := SMap.set 0 e.vals 10 1 } :: es else e :: failFetch es

/-- The end of an NFETCH: its status word, or what an auto-fetch leaves to its CPYN. -/
def State.endFetch (s : State) (b reg : Nat) (ok : Bool) (status : BitVec 64) : State :=
  let bk := s.bank b
  let s := s.setBank b { bk with nfetch := bk.nfetch.drop 1 }
  if reg = 64 then
    if ok then s
    else if s.activeBank (b / 2) = b then s.setQueue (b / 2) .L (failFetch (s.cluster (b / 2)).qL) else s
  else s.applyWrite b (.sreg reg status)

/-- The holder asked has refused: the next on the list is asked. -/
def State.nextHolder (s : State) (b : Nat) : State :=
  let bk := s.bank b
  s.setBank b { bk with nfetch := match bk.nfetch with | x :: xs => { x with tried := x.tried + 1 } :: xs | [] => [] }

/-- A holder's answer to the fetch of a stub (R313): frames are made first, then the holder is read and the tokens compared.
A wait for an eviction leaves the answer to come again. -/
def State.fetchAnswer (s : State) (b : Nat) (f : NodeFetch) (n : Node) (reply : Option RemoteNode) : State :=
  match s.allocate n.part 1 (pageCount n.shape (blockTokens n.bcode) + 1) s.nodeFuel with
  | (s, .waits) => s
  | (s, .got _ (m :: pages)) =>
    let holders := s.holdersOf n
    (match reply, s.liveNode f.node with
      | _, none => { s with freeNo := s.freeNo + 1 }.endFetch b f.reg false s.openStatus
      | none, some (_, n) =>
        if f.tried + 1 < holders.length then s.nextHolder b else s.endFetch b f.reg false (n.fetchStatus cNODE)
      | some k, some (r, n) =>
        if holders.length ≤ f.tried ∨ k.key ≠ s.nodeKey n then s.endFetch b f.reg false (n.fetchStatus cNODE)
        else
          let s := s.replicate r n m pages k
          s.endFetch b f.reg true (match s.node r with | some n => n.fetchStatus 0 | none => 0))
  | (s, _) => s.endFetch b f.reg false (n.fetchStatus cNODE)

/-- NFETCH_COMPLETE (R313). The answer of the holder asked: what it sends, or none when it refuses or no link leads there (R30). -/
def execNfetchComplete (bank : Nat) (reply : Option RemoteNode) (s : State) : Host.Outcome State Fault Refusal :=
  .next (
    match (s.bank bank).nfetch with
    | [] => s
    | f :: _ =>
      match s.liveNode f.node with
      | none => { s with freeNo := s.freeNo + 1 }.endFetch bank f.reg false s.openStatus
      | some (_, n) =>
        if n.state ≠ .remote then s.endFetch bank f.reg true n.ownStatus
        else s.fetchAnswer bank f n (if s.linked then reply else none))

/-! ## Node copies (R303, R304) -/

/-- The node of a copy under way whose span holds an offset, if it still stands. -/
def QEntry.covering (e : QEntry) (s : State) (o : Nat) : Option (Node × Nat) :=
  match e.nodes.find? (fun x => decide (x.start ≤ o)) with
  | some x => (match s.liveNode (.node x.record x.gen) with
    | some (_, n) => some (n, x.start)
    | none => none)
  | none => none

/-- The memory side of a node copy: element k of the stream [head][token][dim]. -/
def QEntry.nodeAt (e : QEntry) (D : Nat) : CopyAddr := fun s last k =>
  let o := e.firstToken + k / D % e.tokens
  let head := bits (fieldOf e.tmpl 6) 0 8 + k / D / e.tokens
  match e.covering s o with
  | none => (s, last, .error (cNODE, 0))
  | some (n, start) =>
    (s, last, .ok (n.element (bits (fieldOf e.tmpl 5) 0 8) (bits (fieldOf e.tmpl 2) 3 1) head (o - start) (k % D)))

/-- The transfer of a node copy with its conversion, by the shape of its nodes and the format and table it has taken. -/
def QEntry.nodeJob (e : QEntry) (core : Nat) (shape : BitVec 32) (out : Bool) : CopyJob :=
  let x := e.bankFmt (e.addr 4 / bankBytes)
  { out := out, total := e.heads * e.tokens * shapeD shape, mem := { code := shapeFmt shape },
    sp := e.takenFormat 4 (fmtCode x) (fmtSlot x), off := e.addr 4, core := core }

/-- A node copy of bank b moves window k; a node of it that is gone ends it. -/
def QEntry.nodeGo (e : QEntry) (s : State) (b : Nat) (out : Bool) (k : Nat) (f : Flags) : Ran :=
  match e.covering s e.firstToken with
  | some (n, _) =>
    e.runWindow s (match (s.bank b).unit with | some u => u.part | none => n.part) (e.nodeJob (b / 8) n.shape out) (e.nodeAt (shapeD n.shape))
      k f (fun s _ _ => s)
  | none => e.report s [.flags f] (4096 * k) cNODE

/-- The checks of a node copy in turn before it starts; `k` acts on the node and its chain. -/
def QEntry.withChain (e : QEntry) (s : State) (k : Nat → Node → List (Nat × Node) → Ran) : Ran :=
  match e.node with
  | .root _ => e.report s [] 0 cHANDLE_BOUNDS
  | x =>
    match s.liveNode x with
    | none => e.report s [] 0 cNODE
    | some (r, n) =>
      match s.lineage r n with
      | none => e.report s [] 0 cNODE
      | some c => if spanEnd c < e.firstToken + e.tokens then e.report s [] 0 cHANDLE_BOUNDS else k r n c

/-- A node copy starts: it takes the nodes of its offsets and the table of its stream's format, which it uses to its end (R164, R304); an
invalid slot fails it. -/
def QEntry.nodeStart (e : QEntry) (s : State) (core : Nat) (c : List (Nat × Node)) : Ran :=
  match (s.core core).formatOf (e.bankFmt (e.addr 4 / bankBytes)) with
  | .ok sp => .more s { e with nodes := e.spanNodes c, tables := SMap.set [] [] 4 sp.table } 0 0
  | .error _ => e.report s [] 0 cTABLE

/-- A step of a node copy: the checks `start` before it starts, then window after window. -/
def QEntry.nodeCopy (e : QEntry) (s : State) (cl : Nat) (out : Bool) (start : Node → List (Nat × Node) → Option Ran) : Ran :=
  match e.window with
  | some (k, f) => e.nodeGo s (s.activeBank cl) out k f
  | none => e.withChain s (fun _ n c => match start n c with
      | some r => r
      | none => e.nodeStart s (cl / 4) c)

/-- A CPYN has its stub replicated (R304). -/
def State.autoFetch (s : State) (b r : Nat) : State :=
  let bk := s.bank b
  let x := s.nameOf r
  if bk.nfetch.any (fun f => f.reg == 64 && f.node == x) then s else s.setBank b { bk with nfetch := bk.nfetch ++ [{ reg := 64, node := x }] }

/-- CPYN (R304). -/
def execCpyn (cl : Nat) (s : State) : Host.Outcome State Fault Refusal :=
  .next (s.runHead cl 0x06 (fun s e =>
    if SMap.get 0 e.vals 10 = 1 then e.report s [] 0 cNODE
    else e.nodeCopy s cl false (fun _ c =>
      match (e.reads? c).find? (fun (x : Nat × Node) => x.2.state == .remote) with
      | some x => some (if bit (fieldOf e.tmpl 0) 0 then .busy (s.autoFetch (s.activeBank cl) x.1) else e.report s [] 0 cNODE)
      | none => none)))

/-- CPYNW (R304). -/
def execCpynw (cl : Nat) (s : State) : Host.Outcome State Fault Refusal :=
  .next (s.runHead cl 0xC6 (fun s e => e.nodeCopy s cl true (fun n c =>
    if e.firstToken < spanEnd (c.drop 1) then some (e.report s [] 0 cHANDLE_BOUNDS)
    else if n.state ≠ .opened then some (e.report s [] 0 cSEALED_WRITE)
    else if n.owner ≠ cl / 4 then some (e.report s [] 0 cPRIVATE_ACCESS)
    else none)))

/-! ## What passes between devices (R314, R315) -/

/-- What this device sends of a sealed node, as it reads it. -/
def State.remoteNode (s : State) (n : Node) : RemoteNode :=
  { key := s.nodeKey n, depth := n.depth, holder := s.domainIndex,
    pages := n.pages.map (fun f => (s.frameCells f).filter (fun c => decide (128 ≤ c.1)))
    bad := (cellsAt 0 n.pages).flatMap (fun x => (s.poisonedIn x.2).map (fun i => (x.1, i))) }

/-- The state after its map and pages have been read. -/
def State.sendNode (s : State) (n : Node) : State := (n.map :: n.pages).foldl State.readFrame s

/-- FORWARDED_READ (R315). A node that is not SEALED is refused; without a link nothing arrives (R30). -/
def execForwardedRead (name : BitVec 128) (s : State) : Host.Outcome State Fault Refusal :=
  .next (
    if !s.linked then s
    else match s.indexed name with
    | some (_, n) =>
      if n.state = .sealed then (s.sendNode n).signal (.forward (some ((s.sendNode n).remoteNode n))) else s.signal (.forward none)
    | none => s.signal (.forward none))

/-- REMOTE_PROBE (R314). -/
def execRemoteProbe (name : BitVec 128) (s : State) : Host.Outcome State Fault Refusal :=
  .next (if s.linked then s.signal (.probeAnswer (s.directory.filter (fun e => e.key.name == name))) else s)

/-- HOLDER_REGISTRATION (R314). -/
def execHolderRegistration (add : Bool) (device : Nat) (entry : NameKey) (s : State) : Host.Outcome State Fault Refusal :=
  .next (if s.linked then
      { s with directory := if add then addHolder device entry s.directory else dropHolder device entry s.directory }
    else s)

end Sys2Proof.Machine
end

