-- ==== Sys2Proof/Machine/Falcon.lean ====
section
/-! DEFINITION. The Falcon-1024 signatures of firmware images (R11, R426). The spec names the standard and gives none of its details: they are
the standard's, version 1.2 (log 68). -/

namespace Sys2Proof.Machine

/-- The modulus. -/
def falconQ : Nat := 12289

/-! ## Encodings -/

/-- Bits of bytes, the most significant first. -/
def bitsOf (bs : List Byte) : List Bool := bs.flatMap (fun b => (List.range 8).map (fun k => b.getLsbD (7 - k)))
def ofBits (bs : List Bool) : Nat := bs.foldl (fun v b => 2 * v + (if b then 1 else 0)) 0

/-- n coefficients of 14 bits, each below q, of a list that holds as many; the bits after them are zero. -/
def keyCoeffs : Nat → List Bool → Option (List Nat)
  | 0, bs => if bs.any id then none else some []
  | n + 1, bs =>
    if falconQ ≤ ofBits (bs.take 14) then none
    else (keyCoeffs n (bs.drop 14)).map (ofBits (bs.take 14) :: ·)

/-- A public key of degree 2^logn: a header byte and the coefficients of h. -/
def falconKey (logn : Nat) : List Byte → Option (List Nat)
  | [] => none
  | x :: bs => if x.toNat = logn ∧ bs.length = ceilDiv (14 * 2 ^ logn) 8 then keyCoeffs (2 ^ logn) (bitsOf bs) else none

/-- A number in unary: the zeros before the first one, and what follows. -/
def unary : List Bool → Option (Nat × List Bool)
  | [] => none
  | true :: bs => some (0, bs)
  | false :: bs => (unary bs).map (fun r => (r.1 + 1, r.2))

/-- n compressed coefficients: a sign, 7 low bits, the rest in unary; no negative zero, and only zeros after them. -/
def decompress : Nat → List Bool → Option (List Int)
  | 0, bs => if bs.any id then none else some []
  | _ + 1, [] => none
  | n + 1, neg :: bs =>
    match unary (bs.drop 7) with
    | none => none
    | some (high, rest) =>
      let m := 128 * high + ofBits (bs.take 7)
      if m = 0 ∧ neg then none else (decompress n rest).map ((if neg then -(m : Int) else (m : Int)) :: ·)

/-! ## Verification -/

/-- The coefficients of a block of 136 bytes of SHAKE256: pairs of bytes, the first the higher, that lie below 5 q. -/
def pointCoeffs (a : List (BitVec 64)) : List Nat :=
  (((a.take 17).flatMap (fun x => (List.range 4).map (fun k => 256 * bits x (16 * k) 8 + bits x (16 * k + 8) 8))).filter (· < 5 * falconQ)).map
    (· % falconQ)

/-- The first n coefficients that a state of SHAKE256 gives, from at most as many blocks. -/
def pointFrom (n : Nat) : Nat → List (BitVec 64) → List Nat → List Nat
  | 0, _, cs => cs.take n
  | fuel + 1, a, cs => if n ≤ cs.length then cs.take n else pointFrom n fuel (keccakF a) (cs ++ pointCoeffs a)

/-- The point of a nonce and a message. -/
def hashToPoint (n : Nat) (m : List Byte) : List Nat := pointFrom n n (sponge m) []

/-- Multiply by x modulo x^n + 1. -/
def mulX (h : List Int) : List Int := -(h.getLastD 0) :: h.dropLast

/-- c - s h modulo x^n + 1. -/
def subMul : List Int → List Int → List Int → List Int
  | c, [], _ => c
  | c, s :: ss, h => subMul (List.zipWith (fun x y => x - s * y) c h) ss (mulX h)

/-- The representative of a coefficient nearest to zero. -/
def centred (x : Int) : Int := let r := x % (falconQ : Int); if r ≤ 6144 then r else r - falconQ

/-- The short vector of a signature is within the bound. -/
def shortEnough (bound : Nat) (c h : List Nat) (s2 : List Int) : Bool :=
  let s1 := (subMul (c.map Int.ofNat) s2 (h.map Int.ofNat)).map centred
  decide (((s1 ++ s2).map (fun x => x.natAbs * x.natAbs)).foldl (· + ·) 0 ≤ bound)

/-- A signature of degree 2^logn and `len` bytes verifies: a header byte, a nonce of 40 bytes and the compressed vector. -/
def falconVerify (logn bound len : Nat) (key m sig : List Byte) : Bool :=
  decide (sig.length = len) && decide ((sig.headD 0).toNat = 0x30 + logn) &&
    (match falconKey logn key, decompress (2 ^ logn) (bitsOf (sig.drop 41)) with
      | some h, some s2 => shortEnough bound (hashToPoint (2 ^ logn) ((sig.drop 1).take 40 ++ m)) h s2
      | _, _ => false)

/-- Falcon-1024. -/
def falcon1024 (key m sig : List Byte) : Bool := falconVerify 10 70265242 1280 key m sig

end Sys2Proof.Machine
end

