-- ==== Sys2Proof/Machine/Sync.lean ====
section
/-! DEFINITION. Packets, atomics, fences, monitors, rings, flags and drains (R276-R279, R386-R400). -/

namespace Sys2Proof.Machine

/-! ## Packets (R276-R279) -/

/-- The lowest free packet tag of a cluster. -/
def Cluster.freeTag (c : Cluster) : Option Nat := firstBelow (fun t => (SMap.get none c.packets t).isNone) 8

/-- A packet to a word waits for the FLADDs to it that go before it, and for a lower member's packet to it (R367); for no store that has not
reached the L1 (R428). -/
def State.packetHeld (s : State) (a : Place) : Bool := s.addBefore a 8 || (s.lowerPackets s.ib).any (fun p => overlaps p.pa 8 a.pa 8)

/-- Issue a packet at an offset: the checks of R237 on the handle, then a tag; a ninth packet waits (R277). It passes fabric ingress as it issues
(R65). -/
def State.sendPacket (s : State) (write : Bool) (r : BitVec 6) (h : BitVec 4) (o : BitVec 64) (m : BitVec 8) : Res :=
  match s.access h o 8 write with
  | .error .wait => .hold s .earlier
  | .error (.trap t) => .trap s t
  | .ok a =>
    if s.packetHeld a then .hold s .earlier
    else if a.spad || decide (memKind a.pa = MemKind.peer) || decide (memKind a.pa = MemKind.host) then .trap s (precise cPERM a.va)
    else
      let c := s.cluster s.focus
      match c.freeTag with
      | none => .wait s
      | some t =>
        let p : Packet := { write := write, reg := r.toNat, pa := a.pa, va := a.va, mask := m,
                            data := if write then s.reg r else 0, bank := s.ib, seq := c.packetNo, last := s.lastMate s.ib }
        if !s.ingressOpen s.partNo a.pa then .hold s .bucket
        else
          let s := (s.charge s.partNo a.pa p.size).setCluster s.focus
            { c with packets := SMap.set none c.packets t (some p), packetNo := c.packetNo + 1 }
          .ok (if write then s else s.setCur (s.cur.markPending r))

/-- A register that a packet read of the bank will write: an earlier PKRD of the same destination is no wait, since the two write
it in issue order (R277). -/
def State.packetPending (s : State) (d : BitVec 6) : Bool :=
  let n := (s.cluster s.focus).outstanding.filter (fun p => !p.write && p.reg == d.toNat && p.bank == s.ib)
  decide (n.length < (s.cur.pend.filter (· == d.toNat)).length)

/-- PKRD (R276). -/
def execPkrd (d : BitVec 6) (h : BitVec 4) (x : BitVec 6) (m : BitVec 8) (s : State) : Host.Outcome State Fault Refusal :=
  s.finish (.pkrd d h x m) (s.withRegs [x] (if d ≠ 0 ∧ s.packetPending d then .wait s else s.sendPacket false d h (s.reg x) m))

/-- PKWR (R276). -/
def execPkwr (s : BitVec 6) (h : BitVec 4) (x : BitVec 6) (m : BitVec 8) (s0 : State) : Host.Outcome State Fault Refusal :=
  s0.finish (.pkwr s h x m) (s0.withRegs [s, x] (s0.sendPacket true s h (s0.reg x) m))

/-- PKWT (R278). -/
def execPkwt (s : State) : Host.Outcome State Fault Refusal :=
  s.finish .pkwt (if (s.cluster s.focus).outstanding.isEmpty then .ok s else .wait s)

/-- PACKET_HOME_WRITE (R276). -/
def execPacketHomeWrite (cl : Nat) (tag : Nat) (s : State) : Host.Outcome State Fault Refusal :=
  .next (match s.packet cl tag with
    | some p => if p.write ∧ (s.cluster cl).packetNext p then s.packetWrite cl tag p else s
    | none => s)

/-- PACKET_REPLY (R276). -/
def execPacketReply (cl : Nat) (tag : Nat) (s : State) : Host.Outcome State Fault Refusal :=
  .next (match s.packet cl tag with
    | some p => if !p.write ∧ (s.cluster cl).packetNext p then s.packetRead cl tag p else s
    | none => s)

/-! ## Atomics (R388-R390) -/

/-- The low n bytes read as signed. -/
def lowSigned (n : Nat) (v : BitVec 64) : Int := sextNat v.toNat (8 * n)

/-- What an atomic of n bytes writes over the old value: none when a compare finds another (R389). -/
def atomValue (op : AtomOp) (n : Nat) (v new old : BitVec 64) : Option (BitVec 64) :=
  match op with
  | .add => some (old + v)
  | .and => some (old &&& v)
  | .or => some (old ||| v)
  | .xor => some (old ^^^ v)
  | .min => some (if lowSigned n v < lowSigned n old then v else old)
  | .max => some (if lowSigned n old < lowSigned n v then v else old)
  | .swp => some v
  | .cas => if lowSigned n old = lowSigned n v then some new else none

/-- An order of R388 that makes an operation a release comes after every access of the bank (R376 case c). -/
def State.ordered (s : State) (order : BitVec 2) (k : Res) : Res := if bit order 1 then s.afterAdds k else k

/-- An atomic of n bytes: old value to s[d]; `f old` is the value written, none when no write is made. -/
def State.atomic (s : State) (d : BitVec 6) (h : BitVec 4) (o : BitVec 64) (n : Nat) (c : BitVec 3) (order : BitVec 2)
    (f : BitVec 64 → Option (BitVec 64)) : Res :=
  s.ordered order (s.withCrock h o n true (fun s a =>
    s.writeHome a n (fun s => s.readHome a n (fun s bs =>
      let old := extended n true bs
      let done := fun (s : State) =>
        let s := match f old with | some v => s.writeAt a (toBytes n v.toNat) | none => s
        s.result d old
      if order = 0 ∨ (order = 2 ∧ f old = none) then done s else s.synchronise a c done))))

/-- Size of an atomic in bytes. -/
def atomSize (z : BitVec 1) : Nat := if z = 1 then 8 else 4
/-- AADD (R389). -/
def execAadd (d : BitVec 6) (h : BitVec 4) (x : BitVec 6) (z : BitVec 1) (c : BitVec 3) (o : BitVec 2) (s : State) : Host.Outcome State Fault Refusal :=
  s.finish (.aadd d h x z c o) (s.withRegs [d, x] (s.atomic d h (s.reg x) (atomSize z) c o (atomValue .add (atomSize z) (s.reg d) 0)))

/-- AAND (R389). -/
def execAand (d : BitVec 6) (h : BitVec 4) (x : BitVec 6) (z : BitVec 1) (c : BitVec 3) (o : BitVec 2) (s : State) : Host.Outcome State Fault Refusal :=
  s.finish (.aand d h x z c o) (s.withRegs [d, x] (s.atomic d h (s.reg x) (atomSize z) c o (atomValue .and (atomSize z) (s.reg d) 0)))

/-- AOR (R389). -/
def execAor (d : BitVec 6) (h : BitVec 4) (x : BitVec 6) (z : BitVec 1) (c : BitVec 3) (o : BitVec 2) (s : State) : Host.Outcome State Fault Refusal :=
  s.finish (.aor d h x z c o) (s.withRegs [d, x] (s.atomic d h (s.reg x) (atomSize z) c o (atomValue .or (atomSize z) (s.reg d) 0)))

/-- AXOR (R389). -/
def execAxor (d : BitVec 6) (h : BitVec 4) (x : BitVec 6) (z : BitVec 1) (c : BitVec 3) (o : BitVec 2) (s : State) : Host.Outcome State Fault Refusal :=
  s.finish (.axor d h x z c o) (s.withRegs [d, x] (s.atomic d h (s.reg x) (atomSize z) c o (atomValue .xor (atomSize z) (s.reg d) 0)))

/-- AMIN (R389). -/
def execAmin (d : BitVec 6) (h : BitVec 4) (x : BitVec 6) (z : BitVec 1) (c : BitVec 3) (o : BitVec 2) (s : State) : Host.Outcome State Fault Refusal :=
  s.finish (.amin d h x z c o) (s.withRegs [d, x] (s.atomic d h (s.reg x) (atomSize z) c o (atomValue .min (atomSize z) (s.reg d) 0)))

/-- AMAX (R389). -/
def execAmax (d : BitVec 6) (h : BitVec 4) (x : BitVec 6) (z : BitVec 1) (c : BitVec 3) (o : BitVec 2) (s : State) : Host.Outcome State Fault Refusal :=
  s.finish (.amax d h x z c o) (s.withRegs [d, x] (s.atomic d h (s.reg x) (atomSize z) c o (atomValue .max (atomSize z) (s.reg d) 0)))

/-- ASWP (R389). -/
def execAswp (d : BitVec 6) (h : BitVec 4) (x : BitVec 6) (z : BitVec 1) (c : BitVec 3) (o : BitVec 2) (s : State) : Host.Outcome State Fault Refusal :=
  s.finish (.aswp d h x z c o) (s.withRegs [d, x] (s.atomic d h (s.reg x) (atomSize z) c o (atomValue .swp (atomSize z) (s.reg d) 0)))

/-- ACAS (R389). -/
def execAcas (d : BitVec 6) (h : BitVec 4) (x : BitVec 6) (z : BitVec 1) (c : BitVec 3) (o : BitVec 2) (s : State) : Host.Outcome State Fault Refusal :=
  s.finish (.acas d h x z c o) (s.withRegs [d, d + 1, x] (s.atomic d h (s.reg x) (atomSize z) c o (atomValue .cas (atomSize z) (s.reg d) (s.reg (d + 1)))))

/-! ## Fences (R392) -/

/-- Stores of the bank that a FENCE orders before what follows it: those to host memory only when it is the flush, full at system scope
(R376 cases e and f, R380). -/
def State.storesWait (s : State) (flush : Bool) : Bool := !(s.storesBefore s.ib).isEmpty || (flush && !(s.latesBefore s.ib).isEmpty)

/-- FENCE_FULL (R392). -/
def execFenceFull (c : BitVec 3) (s : State) : Host.Outcome State Fault Refusal :=
  s.finish (.fenceFull c) (if s.outgoing || s.storesWait (c == 5) then .wait s else .ok s)

/-- FENCE_SS (R392). -/
def execFenceSs (c : BitVec 3) (s : State) : Host.Outcome State Fault Refusal :=
  s.finish (.fenceSs c) (if s.outgoing || s.storesWait false then .wait s else .ok s)

/-- FENCE_LL (R392). Loads are performed as they issue, so it orders none. -/
def execFenceLl (c : BitVec 3) (s : State) : Host.Outcome State Fault Refusal :=
  s.finish (.fenceLl c) (if s.outgoing then .wait s else .ok s)

/-- FENCE_ENGINE (R392). -/
def execFenceEngine (c : BitVec 3) (s : State) : Host.Outcome State Fault Refusal :=
  s.finish (.fenceEngine c) (if s.outgoing || !s.enginesIdle then .wait s else .ok s)

/-! ## Monitors (R396) -/

/-- The bank's monitor already stands in the Crock of an address. -/
def State.monitorThere (s : State) (pa : Nat) : Bool :=
  match s.cur.monitor with
  | some m => decide (m.line < 2 ^ 50) && s.crockOf (128 * m.line) == s.crockOf pa
  | none => false

/-- MONITOR (R396). A new monitor at a home waits while the Crock there has no room for it (R387), and an error of that Crock's is its POISON
(R413). -/
def execMonitor (h : BitVec 4) (o : BitVec 14) (s : State) : Host.Outcome State Fault Refusal :=
  s.finish (.monitor h o) (s.withAccess h (scaled o 8) 8 false (fun a =>
    if !a.spad && decide (memKind a.pa = MemKind.host) then .trap s (precise cPERM a.va)
    else if !a.spad && s.noRoom s.partNo a.pa && !s.monitorThere a.pa then .wait s
    else s.readAt a 8 (fun s _ =>
      if !a.spad && s.crockFails a.pa then .trap (s.clearCrock a.pa) (precise cPOISON a.va)
      else
        let line := if a.spad then spadLine s.coreNo a.pa else a.pa / 128
        .ok (s.setCur { s.cur with monitor := some { line := line, hit := false } }))))

/-- MWAIT ends: the status is written and the monitor disarmed. -/
def State.endMwait (s : State) (d : BitVec 6) (v : BitVec 64) : Res := .ok (s.setCur { (s.cur.setReg d v) with monitor := none })

/-- The timebase at which the waiting instruction issued: not while a register it names was pending (R126). -/
def Bank.since (b : Bank) (i : Instr) (now : BitVec 64) : BitVec 64 :=
  match b.waits with
  | some w => if w.instr = i ∧ w.why = .itself then w.since else now
  | none => now

/-- MWAIT (R396). -/
def execMwait (d : BitVec 6) (a : BitVec 6) (s : State) : Host.Outcome State Fault Refusal :=
  s.finish (.mwait d a) (s.withRegs [d, a] (
    match s.cur.monitor with
    | none => s.endMwait d 2
    | some m =>
      if m.hit then s.endMwait d 0
      else if s.reg a ≠ 0 ∧ (s.reg a).toNat * 1000 ≤ (s.now - s.cur.since (.mwait d a) s.now).toNat then s.endMwait d 1
      else .wait s))

/-! ## Rings (R251, R397) -/

/-- A ring control word. -/
structure Ring where
  base : Nat
  depth : Nat
  esize : Nat
  head : BitVec 32
  tail : BitVec 32
  claimed : BitVec 32
  zero : Bool
  deriving DecidableEq, Repr

def Ring.of (b : List Byte) : Ring :=
  let f := fun (o n : Nat) => ofBytes ((b.drop o).take n)
  { base := f 0 4, depth := f 4 4, esize := f 8 2, head := BitVec.ofNat 32 (f 16 4), tail := BitVec.ofNat 32 (f 20 4),
    claimed := BitVec.ofNat 32 (f 24 4), zero := f 10 6 == 0 && f 28 4 == 0 }

/-- The checks every ring instruction makes. -/
def Ring.ok (r : Ring) : Bool :=
  (List.range 17).any (fun k => r.depth == 2 ^ k) && r.esize % 8 == 0 && decide (8 ≤ r.esize) && decide (r.esize ≤ 4096)
    && r.base % r.esize == 0 && decide (r.base + r.depth * r.esize ≤ spadBytes) && r.zero

/-- slot(n). -/
def Ring.slot (r : Ring) (n : BitVec 32) : BitVec 64 :=
  BitVec.ofNat 64 (n.toNat * 2 ^ 32 + (r.base + n.toNat % r.depth * r.esize))

/-- The control word at h0 offset 32 x off14, checked; only h0 names one. -/
def State.ring (s : State) (h : BitVec 4) (o : BitVec 14) (k : State → Nat → Ring → Res) : Res :=
  let off := 32 * o.toNat
  if s.acquiring then .hold s .earlier
  else if h ≠ 0 then .trap s (precise cPERM ((s.cur.handle h.toNat).reach (BitVec.ofNat 64 off)))
  else match s.curCore.spRead off 32 with
    | (c, none) => .trap (s.setCurCore c) (precise cPOISON (BitVec.ofNat 64 off))
    | (c, some bs) =>
      let r := Ring.of bs
      if r.ok then k (s.setCurCore c) off r else .trap (s.setCurCore c) (precise cQUEUE (BitVec.ofNat 64 off))

/-- Write one count of a control word. -/
def State.setCount (s : State) (off field : Nat) (v : BitVec 32) : State :=
  s.spStore s.coreNo (cellsAt (off + field) (toBytes 4 v.toNat))

/-- RWFREE (R397). -/
def execRwfree (r : BitVec 6) (h : BitVec 4) (o : BitVec 14) (s : State) : Host.Outcome State Fault Refusal :=
  s.finish (.rwfree r h o) (s.withRegs [r] (s.ring h o (fun s off c =>
    if (c.claimed - c.head).toNat < c.depth then
      .ok ((s.setCount off 24 (c.claimed + 1)).setReg r (c.slot c.claimed))
    else .wait s)))

/-- RPOST (R397), a release at core scope. -/
def execRpost (r : BitVec 6) (h : BitVec 4) (o : BitVec 14) (s : State) : Host.Outcome State Fault Refusal :=
  s.finish (.rpost r h o) (s.withRegs [r] (s.ring h o (fun s off c =>
    let n := (s.reg r).extractLsb' 32 32
    if (c.claimed - c.tail).toNat ≤ (n - c.tail).toNat then .trap s (precise cQUEUE (BitVec.ofNat 64 off))
    else if c.tail = n then s.afterAdds (.ok (s.setCount off 20 (n + 1))) else .wait s)))

/-- RWFILL (R397). -/
def execRwfill (r : BitVec 6) (h : BitVec 4) (o : BitVec 14) (s : State) : Host.Outcome State Fault Refusal :=
  s.finish (.rwfill r h o) (s.withRegs [r] (s.ring h o (fun s _ c =>
    if c.tail ≠ c.head then .ok (s.setReg r (c.slot c.head)) else .wait s)))

/-- RFREE (R397), a release at core scope. -/
def execRfree (r : BitVec 6) (h : BitVec 4) (o : BitVec 14) (s : State) : Host.Outcome State Fault Refusal :=
  s.finish (.rfree r h o) (s.withRegs [r] (s.ring h o (fun s off c =>
    let n := (s.reg r).extractLsb' 32 32
    if (c.tail - c.head).toNat ≤ (n - c.head).toNat then .trap s (precise cQUEUE (BitVec.ofNat 64 off))
    else if c.head = n then s.afterAdds (.ok (s.setCount off 16 (n + 1))) else .wait s)))

/-! ## Flags (R398, R399) -/

/-- FLADD (R398). Through h0 the core performs it at once (R386), a releasing one after every access of the bank and any one after an acquiring
FLADD (R376 cases c and d). To memory it is posted, once no late store or packet to its word, or before a release of any kind, is on its way and
it has passed fabric ingress (R65); what its line answers at the Crock comes as a deferred trap (R399). -/
def execFladd (d : BitVec 6) (h : BitVec 4) (x : BitVec 6) (c : BitVec 3) (o : BitVec 2) (s : State) : Host.Outcome State Fault Refusal :=
  s.finish (.fladd d h x c o) (s.withRegs [d, x] (
    match s.access h (s.reg x) 8 true with
    | .error .wait => .hold s .earlier
    | .error (.trap t) => .trap s t
    | .ok a =>
      if a.spad then
        if s.addBefore a 8 then .hold s .earlier
        else s.ordered o (s.readAt a 8 (fun s bs => .ok (s.writeAt a (toBytes 8 (ofBytes bs + (s.reg d).toNat)))))
      else if memKind a.pa = MemKind.host then .trap s (precise cPERM a.va)
      else match s.objectFault (some s.coreNo) a.pa 8 true with
        | some k => .trap s (precise k a.va)
        | none =>
          if s.wayMeets s.ib a.pa 8 || (s.lowerAdds s.ib).any (fun f => f.before a 8)
              || (bit o 1 && !((s.storesBefore s.ib).isEmpty && (s.packetsBefore s.ib).isEmpty && (s.lowerAdds s.ib).isEmpty)) then
            .hold s .earlier
          else if !s.ingressOpen s.partNo a.pa then .hold s .bucket
          else
            let f : PostedAdd := { pa := a.pa, va := a.va, v := s.reg d, scope := c, order := o, mode := (s.part s.partNo).scopeMode,
                                   last := s.lastMate s.ib }
            let s := s.charge s.partNo a.pa 8
            .ok (s.setCur { s.cur with fladds := s.cur.fladds ++ [f] })))

/-- FLADD_PERFORM (R399). The bank's FLADDs are performed in issue order. -/
def execFladdPerform (bank : Nat) (s : State) : Host.Outcome State Fault Refusal :=
  .next (match (s.bank bank).fladds with
    | a :: _ => s.performAdd bank a
    | [] => s)

/-- FLSET (R398). -/
def execFlset (d : BitVec 6) (h : BitVec 4) (x : BitVec 6) (c : BitVec 3) (o : BitVec 2) (s : State) : Host.Outcome State Fault Refusal :=
  s.finish (.flset d h x c o) (s.withRegs [d, x] (s.ordered o (s.withCrock h (s.reg x) 8 true (fun s a =>
    s.writeHome a 8 (fun s => s.synchronise a c (fun s => .ok (s.writeAt a (toBytes 8 (s.reg d).toNat))))))))

def Core.flag (c : Core) (k : Nat) : Bool := SMap.get false c.flags k
def Core.setFlag (c : Core) (k : Nat) (v : Bool) : Core := { c with flags := SMap.set false c.flags k v }

/-- FLSET_CORE_FLAG (R398), a release at core scope. -/
def execFlsetCoreFlag (d : BitVec 6) (k : BitVec 6) (s : State) : Host.Outcome State Fault Refusal :=
  s.finish (.flsetCoreFlag d k) (s.withRegs [d] (s.afterAdds (.ok (s.setCurCore (s.curCore.setFlag k.toNat (bit (s.reg d) 0))))))

/-- The word a flag lies in, as a watch names it. -/
def State.flagWord (s : State) (a : Place) : Nat := if a.spad then spadWord s.coreNo a.pa else a.pa / 8

/-- What the FLWAIT that waits at the bank's boundary has found: none when it has not read the word yet (R399). -/
def State.watched (s : State) (i : Instr) (word value : Nat) : Option Bool :=
  match s.cur.waits, s.cur.watch with
  | some w, some x => if w.instr = i ∧ w.why = .itself ∧ x.word = word ∧ x.value = value then some x.met else none
  | _, _ => none

/-- FLWAIT (R398, R399). It reads the word once, and a write to it from then on ends the wait by the value it leaves there. -/
def execFlwait (d : BitVec 6) (h : BitVec 4) (x : BitVec 6) (c : BitVec 3) (o : BitVec 2) (s : State) : Host.Outcome State Fault Refusal :=
  s.finish (.flwait d h x c o) (s.withRegs [d, x] (s.withPlace h (s.reg x) 8 false (fun p =>
    match s.watched (.flwait d h x c o) (s.flagWord p) (s.reg d).toNat with
    | some true => s.synchronise p c (fun s => .ok s)
    | some false => .wait s
    | none => s.withCrock h (s.reg x) 8 false (fun s a => s.readHome a 8 (fun s bs =>
        if ofBytes bs < (s.reg d).toNat then
          .wait (s.setCur { s.cur with watch := some { word := s.flagWord a, value := (s.reg d).toNat } })
        else s.synchronise a c (fun s => .ok s))))))

/-- FLWAIT_CORE_FLAG (R398). -/
def execFlwaitCoreFlag (d : BitVec 6) (k : BitVec 6) (s : State) : Host.Outcome State Fault Refusal :=
  s.finish (.flwaitCoreFlag d k) (s.withRegs [d] (if s.curCore.flag k.toNat = bit (s.reg d) 0 then .ok s else .wait s))

/-! ## Drains (R400) -/

/-- DRAIN (R400). -/
def execDrain (a : BitVec 6) (k : BitVec 6) (s : State) : Host.Outcome State Fault Refusal :=
  s.finish (.drain a k) (s.withRegs [a] (
    let c := s.curCore
    if (SMap.get none c.drains k.toNat).isSome then .trap s (precise cQUEUE (zx k))
    else match s.cur.unit with
      | none => .ok s
      | some u =>
        let x : Drain := { part := u.part, levels := (s.reg a).extractLsb' 0 32, before := (s.part u.part).nextOrder, issuer := u.order }
        .ok (s.setCurCore { (c.setFlag k.toNat false) with drains := SMap.set none c.drains k.toNat (some x) })))

/-- A unit or waiting record still counts for a drain: not the issuing unit, nor its record once it is queued again (R400). -/
def State.drainWaits (s : State) (x : Drain) : Bool :=
  (s.part x.part).waiting.any (fun w => w.order != x.issuer && bit x.levels w.crec.level && decide (w.order < x.before))
    || s.banks.any (fun (y : Nat × Bank) => match y.2.unit with
        | some u => u.part == x.part && u.order != x.issuer && bit x.levels u.crec.level && decide (u.order < x.before)
        | none => false)

/-- DRAIN_COMPLETE (R400). -/
def execDrainComplete (core : Nat) (k : Nat) (s : State) : Host.Outcome State Fault Refusal :=
  .next (match SMap.get none (s.core core).drains k with
    | some x =>
      if s.drainWaits x then s
      else s.setCore core { ((s.core core).setFlag k true) with drains := SMap.set none (s.core core).drains k none }
    | none => s)

/-! ## Wakes: the waiting instruction of a bank is run again (R396-R399) -/

/-- Run a bank's waiting instruction by its meaning, when it is one of those `pick` names and the bank issues alone. -/
def State.wake (s : State) (b : Nat) (run : Instr → Option (State → Host.Outcome State Fault Refusal)) :
    Host.Outcome State Fault Refusal :=
  let bk := s.bank b
  match bk.waits with
  | none => .next s
  | some w =>
    if bk.width = 1 ∧ s.activeBank (b / 2) = b ∧ !s.parked b ∧ !s.paused b ∧ bk.nextTrap = none then
      match run w.instr with
      | some f => onNext (f { s with focus := b / 2 }) (fun t => { t with focus := s.focus })
      | none => .next s
    else .next s

/-- MWAIT_WAKE (R396). -/
def execMwaitWake (bank : Nat) (s : State) : Host.Outcome State Fault Refusal :=
  s.wake bank (fun i => match i, (s.bank bank).monitor with
    | .mwait d a, some m => if m.hit then some (execMwait d a) else none
    | _, _ => none)

/-- MWAIT_TIMEOUT (R396). -/
def execMwaitTimeout (bank : Nat) (s : State) : Host.Outcome State Fault Refusal :=
  s.wake bank (fun i => match i, (s.bank bank).monitor with
    | .mwait d a, some m => if m.hit then none else some (execMwait d a)
    | _, _ => none)

/-- FLWAIT_WAKE (R399). -/
def execFlwaitWake (bank : Nat) (s : State) : Host.Outcome State Fault Refusal :=
  s.wake bank (fun i => match i with
    | .flwait d h x c o => some (execFlwait d h x c o)
    | .flwaitCoreFlag d k => some (execFlwaitCoreFlag d k)
    | _ => none)

/-- LOOPM_FLAG_WAKE (R143). -/
def execLoopmFlagWake (bank : Nat) (s : State) : Host.Outcome State Fault Refusal :=
  s.wake bank (fun i => match i with
    | .loopm h l f e => some (execLoopm h l f e)
    | _ => none)

/-- QUEUE_REGISTER_WAKE (R144). -/
def execQueueRegisterWake (bank : Nat) (s : State) : Host.Outcome State Fault Refusal :=
  s.wake bank (fun i => match i with
    | .qpush a q => some (execQpush a q)
    | .qpop d q => some (execQpop d q)
    | _ => none)

/-- RING_WAIT_WAKE (R397). -/
def execRingWaitWake (bank : Nat) (s : State) : Host.Outcome State Fault Refusal :=
  s.wake bank (fun i => match i with
    | .rwfree r h o => some (execRwfree r h o)
    | .rpost r h o => some (execRpost r h o)
    | .rwfill r h o => some (execRwfill r h o)
    | .rfree r h o => some (execRfree r h o)
    | _ => none)

end Sys2Proof.Machine
end

