-- ==== Sys2Proof/Machine/Work.lean ====
section
/-! DEFINITION. Creating, committing and ending work (R79-R86, R153-R157, R419, R420), and the steps that start, discard and time
units (R76, R83, R405, R416). -/

namespace Sys2Proof.Machine

/-! ## SPAWN and JDEC (R153-R155) -/

/-- ALIGN judged on the virtual address before any other check (R154). -/
def State.alignedTo (s : State) (h : BitVec 4) (o : BitVec 64) (n : Nat) (k : Res) : Res :=
  let va := (s.cur.handle h.toNat).reach o
  if va.toNat % n ≠ 0 then .trap s (precise cALIGN va) else k

/-- The commit that a unit's SPAWN, JDEC or CANCEL makes first (R79). -/
def State.commitFirst (s : State) (u : WorkUnit) : State := s.commitUnit u

/-- account and enqueue as one step at the Crock; none when the level or a count is full, or a Crock has no room for an entry (R387). -/
def State.enqueueNew (s : State) (u : WorkUnit) (r : Record) : Option State :=
  if s.levelFull u.part r.level || (s.accountsAt u.part r).any (fun a => s.noRoom u.part a.1) then none
  else match s.account u.part r false with
    | none => none
    | some s =>
      let b := s.cur
      let s := s.setCur { b with spawnNext := b.spawnNext + 1 }
      some (s.enqueue u.part r (zx b.spawnNext) (zx b.spawnCount) u.asid)

/-- The end of SPAWN and of JDEC's last decrement: the record is enqueued, or an error of a Crock at an entry it updates is POISON (R413), or
the level is full. -/
def State.enqueueAt (s : State) (u : WorkUnit) (r : Record) (va : BitVec 64) : Res :=
  let s := s.seeRecord u.part r
  match (s.accountsAt u.part r).find? (fun a => s.crockFails a.1) with
  | some a => .trap (s.clearCrock a.1) (precise cPOISON a.2)
  | none =>
    match s.enqueueNew u r with
    | some s => .ok s
    | none => .trap s (precise cQUEUE va)

/-- A frame of a record is published at package scope before the enqueue. -/
def State.publishFrame (s : State) (kind : WalkKind) (r : Record) (k : State → Res) : Res :=
  if r.w1 = 0 then k s.dropWalk else s.publishing kind 3 r.w1 k

/-- SPAWN up to its enqueue, with the record and its address (R154). -/
def State.spawnWalk (s : State) (h : BitVec 4) (o : BitVec 14) (k : State → WorkUnit → Record → BitVec 64 → Res) : Res :=
  s.wholeUnit (.spawn h o) (fun u =>
    let off := scaled o 32
    s.alignedTo h off 32 (s.withAccess h off 32 false (fun a => s.readAt a 32 (fun s bs =>
      s.withTag { a with pa := a.pa + 8 } (fun s tag =>
        let r := Record.ofBytes bs tag
        if !s.recordOk u.part r then .trap s (precise cQUEUE a.va)
        else s.afterAdds ((s.commitFirst u).publishFrame .spawn r (fun s => k s u r a.va)))))))

/-- SPAWN (R154). -/
def execSpawn (h : BitVec 4) (o : BitVec 14) (s : State) : Host.Outcome State Fault Refusal :=
  s.finish (.spawn h o) (s.spawnWalk h o (fun s u r va => s.enqueueAt u r va))

/-- Set a join word at its home. -/
def State.setJoin (s : State) (a : Place) (v : Nat) : State := s.store (cellsAt (a.pa + 16) (toBytes 4 v))

/-- The record of a JDEC as it stands, whose place is no scratchpad's. -/
def State.joinRecord (s : State) (a : Place) : Record := Record.ofBytes (s.bytes a.pa 32) (s.tagAt (a.pa + 8))

/-- JDEC's last decrement: the record is checked, its frame published and its unit created, or the join goes back to 1. -/
def State.joinDone (s : State) (u : WorkUnit) (a : Place) : Res :=
  let r := s.joinRecord a
  if !s.recordOk u.part r || s.levelFull u.part r.level then .trap (s.setJoin a 1) (precise cQUEUE a.va)
  else match s.publishFrame .jdec r (fun s => s.enqueueAt u r a.va) with
    | .trap s t => .trap (s.setJoin a 1) t
    | .wait s => .wait (s.setJoin a 1)
    | x => x

/-- The fetch-and-decrement of JDEC, acq_rel at package scope. Its SCOPE_MISMATCH and MDUE name the record's address (R401 says only an address;
log 20). -/
def State.joinDecrement (s : State) (u : WorkUnit) (a : Place) : Res :=
  match s.writeFault (a.pa + 16) 4 with
  | (s, some c) => .trap s (precise c a.va)
  | (s, none) => s.synchronise { a with pa := a.pa + 16 } 3 (fun s =>
    let old := s.peek (a.pa + 16) 4
    if old = 0 then .trap s (precise cQUEUE a.va)
    else
      let s := s.setJoin a (old - 1)
      if old = 1 then s.joinDone u a else .ok s)

/-- JDEC up to its commit and decrement (R155). An uncorrectable error of the Crock at the join word (R413) is found before the commit, so that the
unit stays uncommitted; R155 speaks of no such error. It and the write checks of the word name the word's address (log 33). -/
def State.joinChecks (s : State) (h : BitVec 4) (o : BitVec 14) (k : State → WorkUnit → Place → Res) : Res :=
  s.wholeUnit (.jdec h o) (fun u =>
    let off := scaled o 32
    s.alignedTo h off 32 (
      s.withAccess h (off + 16) 4 true (fun j =>
        s.withAccess h off 32 false (fun a =>
          if a.spad || decide (memKind a.pa = MemKind.host) then .trap s (precise cPERM a.va)
          else s.readAt a 32 (fun s _ =>
          match s.objectFault (some s.coreNo) (a.pa + 16) 4 true with
          | some c => .trap s (precise c j.va)
          | none =>
            if !s.ingressOpen s.partNo (a.pa + 16) then .hold s .bucket
            else if s.crockFails (a.pa + 16) then .trap (s.clearCrock (a.pa + 16)) (precise cPOISON j.va)
            else s.afterAdds (k s u a))))))

/-- JDEC (R155). -/
def execJdec (h : BitVec 4) (o : BitVec 14) (s : State) : Host.Outcome State Fault Refusal :=
  s.finish (.jdec h o) (s.joinChecks h o (fun s u a => ((s.charge s.partNo (a.pa + 16) 8).commitFirst u).joinDecrement u a))

/-- The walk of a JDEC that would read 1, the join left as it stands (R155, R394). -/
def State.joinWalk (s : State) (h : BitVec 4) (o : BitVec 14) : Res :=
  s.joinChecks h o (fun s u a =>
    let r := s.joinRecord a
    if s.peek (a.pa + 16) 4 ≠ 1 || !s.recordOk u.part r || s.levelFull u.part r.level || r.w1 = 0 then .wait s
    else (s.commitFirst u).publishing .jdec 3 r.w1 .ok)

/-! ## COMMIT, YIELD, DONE (R156, R157, R419) -/

/-- COMMIT (R156). -/
def execCommit (s : State) : Host.Outcome State Fault Refusal :=
  s.finish .commit (s.wholeUnit .commit (fun u => .ok (s.commitUnit u)))

/-- YIELD (R157). -/
def execYield (s : State) : Host.Outcome State Fault Refusal :=
  s.finish .yield (s.wholeUnit .yield (fun u =>
    if u.committed then .ok s
    else
      let s := s.seeWaiting u.part
      if !s.yieldTo u s.ib then .ok s else .keep (s.leave s.ib .yielded)))

/-- DONE (R419). It waits at its engine fence, and while a Crock has no room for an entry that it updates (R387). A release of its retirement
that mismatches is its precise fault where the mode traps (R385, R418). -/
def execUnitDone (s : State) : Host.Outcome State Fault Refusal :=
  s.finish .unitDone (s.wholeUnit .unitDone (fun u =>
    if !s.endsNow s.ib u .done then .wait s
    else match s.retireMismatch u.part u.crec s.coreNo with
    | some va => .trap (s.countMismatch 2 u.part) (precise cSCOPE_MISMATCH va)
    | none => .keep (((s.closeSession s.ib).removeUnit s.ib).retireRecord u.part u.crec s.coreNo)))

/-! ## CANCEL and CCNT (R420) -/

/-- The job and entry that a level and a value name, if they exist: one of the unit's own job for levels 1 to 3, a job slot for level 4. -/
def State.namedEntry (s : State) (u : WorkUnit) (l : BitVec 3) (v : BitVec 64) : Option (Job × Nat × WorkLevel × Nat) :=
  let own := fun (level : WorkLevel) (bound : Job → Nat) => match s.job u.part u.crec.job with
    | some j => if v.toNat < bound j then some (j, u.crec.job, level, v.toNat) else none
    | none => none
  match l.toNat with
  | 1 => own .launch (fun j => 2 ^ j.launchLog2)
  | 2 => own .graph (fun j => 2 ^ j.graphLog2)
  | 3 => own .phase (fun _ => 256)
  | _ =>
    if v.toNat < 64 then
      match s.job u.part v.toNat with
      | some j => some (j, v.toNat, .job, 0)
      | none => none
    else none

/-- An operation on a counter entry at its Crock passes ingress (R65), waits for room there (R387) and meets the errors of its line and of the
Crock (R271, R413). -/
def State.atEntry (s : State) (u : WorkUnit) (j : Job) (l : WorkLevel) (id : Nat) (k : State → Res) : Res :=
  match s.entryPa u.part j l id with
  | (s, some pa) =>
    if !s.ingressOpen u.part pa then .hold s .bucket
    else if s.noRoom u.part pa then .wait s
    else if s.crockFails pa then .trap (s.clearCrock pa) (precise cPOISON (j.entryVa l id))
    else match s.fillFault pa 16 with
      | (s, some c) => .trap s (precise c (j.entryVa l id))
      | (s, none) => k s
  | (s, none) => k s

/-- CANCEL (R420). -/
def execCancel (a : BitVec 6) (l : BitVec 3) (s : State) : Host.Outcome State Fault Refusal :=
  s.finish (.cancel a l) (s.withRegs [a] (s.wholeUnit (.cancel a l) (fun u =>
    match s.namedEntry u l (s.reg a) with
    | none => .trap s (precise cQUEUE (s.reg a))
    | some (j, _, level, id) => s.atEntry u j level id (fun s =>
        .ok ((s.commitFirst u).markEntry u.part j level id 2).spreadCancel))))

/-- CCNT (R420). -/
def execCcnt (d : BitVec 6) (a : BitVec 6) (r : BitVec 1) (l : BitVec 3) (s : State) : Host.Outcome State Fault Refusal :=
  s.finish (.ccnt d a r l) (s.withRegs [d, a] (
    match s.cur.unit with
    | none => .ok s
    | some u =>
      match s.namedEntry u l (s.reg a) with
      | none => .trap s (precise cQUEUE (s.reg a))
      | some (j, _, level, id) =>
        s.atEntry u j level id (fun s =>
          let (s, c) := s.seeCounter u.part j level id
          let v := zx (if r = 1 then c.retired else c.outstanding)
          match (s.entryPa u.part j level id).2 with
          | none => s.result d v
          | some pa => (s.charge u.part pa 8).synchronise { spad := false, pa := pa, va := j.entryVa level id } 3 (fun s => s.result d v))))

/-! ## Placing, discarding and timing units -/

/-- PLACE (R76). -/
def execPlace (core : Nat) (s : State) : Host.Outcome State Fault Refusal :=
  .next (s.placeCore core)

/-- A member of the unit in bank b with a trap to take. -/
def State.trapped (s : State) (u : WorkUnit) (b : Nat) : Option Nat :=
  (u.clusters.map (bankOf b)).find? (fun k => (s.bank k).nextTrap.isSome)

/-- VICTIM_DISCARD (R81): a victim is to be discarded, and a unit that is ending ends when its operations have run to their join; before a
DONE ends it, what they faulted is taken (R405, R419), and a DONE still at its fence stands at a boundary, where a victim is discarded. -/
def execVictimDiscard (bank : Nat) (s : State) : Host.Outcome State Fault Refusal :=
  .next (match (s.bank bank).unit with
    | some u =>
      if u.victim && !u.committed then s.leave bank .victim
      else (match (s.bank bank).ending, s.trapped u bank with
        | some .done, some k => s.takePending k
        | some _, _ => s.leave bank .done
        | none, _ => s)
    | none => s)

/-- CANCEL_DISCARD (R85). -/
def execCancelDiscard (bank : Nat) (s : State) : Host.Outcome State Fault Refusal :=
  .next (match (s.bank bank).unit with
    | some u => if u.cancelled && !u.committed then s.leave bank .cancelled else s
    | none => s)

/-- The unit in a bank waits for a page answer. -/
def State.waitsForPage (s : State) (b : Nat) : Bool :=
  (s.unitClusters b).any (fun cl => match (s.bank (bankOf b cl)).page with | some w => !w.resumed | none => false)

/-- The bank that takes a unit's COMMIT_BUDGET: the member in a handler, where an overrun ends the unit (R406), else member 0 (log 17: no rule
names the member). -/
def State.timerBank (s : State) (u : WorkUnit) (b : Nat) : Nat :=
  match (u.clusters.map (bankOf b)).find? (fun k => (s.bank k).trapGroup.isSome) with | some k => k | none => b

/-- COMMIT_BUDGET (R83). -/
def execCommitBudget (bank : Nat) (s : State) : Host.Outcome State Fault Refusal :=
  .next (
    let bk := s.bank bank
    match bk.unit with
    | none => s
    | some u =>
      let due := (u.spent + 1) * u.budget
      if u.member = 0 ∧ u.committed ∧ u.budget ≠ 0 ∧ !s.waitsForPage bank ∧ due * 1000 ≤ (s.now - u.commitTime).toNat then
        let s := { s with banks := updUnit u.id (fun x => { x with spent := x.spent + 1 }) s.banks }
        s.pendTrap (s.timerBank u bank) { code := cCOMMIT_BUDGET, deferred := true, info := BitVec.ofNat 64 due }
      else s)

/-- The waits of a member's group-mates, which keep it back at their bundle (R92). -/
def State.mateWaits (s : State) (b : Nat) : List Waits := (s.groupOf b).filterMap (fun cl => (s.bank (bankOf b cl)).waits)

/-- The bank is stalled by R416: its instruction waits as one of the stalls that count, or it is kept back without a wait of its own, by a
group-mate's handler, by a group-mate's stall or at the fence of a DONE. -/
def State.stallCounts (s : State) (b : Nat) : Bool :=
  let bk := s.bank b
  match bk.waits with
  | some w => !w.noStall
  | none =>
    bk.held || bk.ending == some .done
      || (bk.joined.isNone && !(s.mateWaits b).isEmpty && (s.mateWaits b).all (fun w => !w.noStall))

/-- The bank waits in a way that R416 names as no stall: its ticks begin anew after it. -/
def State.waitsFreely (s : State) (b : Nat) : Bool :=
  let bk := s.bank b
  bk.unit.isSome && (bk.joined.isSome || s.waitsForPage b
    || (match bk.waits with | some w => w.noStall | none => (s.mateWaits b).any (·.noStall)))

/-- WATCHDOG (R416). -/
def execWatchdog (bank : Nat) (s : State) : Host.Outcome State Fault Refusal :=
  .next (
    let bk := s.bank bank
    match bk.unit with
    | some u =>
      let stall := (s.part u.part).stall.toNat
      let ticks := (s.now - bk.progress).toNat / 1000
      if stall ≠ 0 ∧ stall ≤ ticks ∧ s.stallCounts bank ∧ s.activeBank (bank / 2) = bank ∧ !s.waitsForPage bank then
        (s.setBank bank { bk with progress := s.now }).pendTrap bank
          { code := cWATCHDOG, deferred := true, info := BitVec.ofNat 64 ticks }
      else s
    | none => s)

/-- TAKE_PENDING_TRAP (R405). -/
def execTakePendingTrap (bank : Nat) (s : State) : Host.Outcome State Fault Refusal :=
  .next (if s.activeBank (bank / 2) = bank ∧ !(s.bank bank).held ∧ ((s.bank bank).ending.isNone || (s.bank bank).ending == some .done) ∧ !s.paused bank then s.takePending bank else s)

end Sys2Proof.Machine
end

