-- ==== Sys2Proof/Machine/Device.lean ====
section
/-! DEFINITION. The steps of the host, the BMC and the device's own agents: job admission (R45-R47, R68), ownership (R51-R55),
partitions (R56-R64, R71), function-level resets (R66), memory traffic from outside (R275, R361, R362), power, temperature, MCTP, SPDM
and boot (R422-R427). -/

namespace Sys2Proof.Machine

/-! ## Masters and notices (R51-R55, R66, R425) -/

/-- Master codes (R53). -/
def masterCode (m : Master) : BitVec 4 := match m with | .pfA => 1 | .pfB => 2 | .bmc => 3

/-- A master's port or interface is present. -/
def State.hasMaster (s : State) (m : Master) : Bool := match m with | .pfA => s.fuses.hostPorts.getLsbD 0 | .pfB => s.fuses.hostPorts.getLsbD 1 | .bmc => true

/-- The firmware chain has been verified (R426): otherwise the block accepts only reads and no VF is presented. -/
def State.booted (s : State) : Bool := s.mgmt.bootStage == 3 && s.mgmt.bootResult == 0

def State.setMgmt (s : State) (m : Mgmt) : State := { s with mgmt := m }

/-- The live partition that a function slot's VF is bound to (R66). -/
def State.boundTo (s : State) (slot : Nat) : Option Nat :=
  if s.booted && s.fuses.hostPorts.getLsbD (slot / 16) then
    (List.range 16).find? (fun p => (s.part p).live && (s.part p).functionSlot == slot)
  else none

/-- MSI-X vector v of each present PF. -/
def State.pfVectors (s : State) (v : Nat) : State :=
  let s := if s.hasMaster .pfA then s.signal (.pfVector false v) else s
  if s.hasMaster .pfB then s.signal (.pfVector true v) else s

/-- Vector 2 of the VFs of partitions (R66). -/
def State.partVectors (s : State) : List Nat → State
  | [] => s
  | p :: ps => ((if (s.part p).live then s.signal (.vfVector (s.part p).functionSlot 2) else s)).partVectors ps

/-- hb_age in ms (R53). -/
def State.hbAge (s : State) : Nat :=
  if s.mgmt.owner = 0 then 0 else Nat.min ((s.now - s.mgmt.hbSince).toNat / 1000000) 0xFFFF

/-- own_status (R53). -/
def State.ownStatus (s : State) : BitVec 64 :=
  BitVec.ofNat 64 (s.mgmt.lapseCount.toNat * 2 ^ 32 + s.hbAge * 2 ^ 16 + s.mgmt.handoverTarget.toNat * 2 ^ 8 + s.mgmt.owner.toNat)

/-- part_status (R60). -/
def State.partStatus (s : State) : BitVec 64 :=
  BitVec.ofNat 64 (s.mgmt.partCode.toNat * 256 + (if s.mgmt.running.isSome then 1 else 0))

/-- therm_status (R422). -/
def State.thermStatus (s : State) : BitVec 64 :=
  BitVec.ofNat 64 ((if s.mgmt.critical then 2 ^ 50 else 0) + (if s.mgmt.capped then 2 ^ 49 else 0) + (if s.mgmt.hot then 2 ^ 48 else 0)
    + s.mgmt.temps.toNat)

/-! ## own_cmd (R54) -/

def State.own (s : State) (c : BitVec 4) : State :=
  s.setMgmt { s.mgmt with owner := c, handoverTarget := 0, hbSince := s.now }

/-- own_cmd as the security processor applies it. -/
def State.ownCmd (s : State) (m : Master) (op target : Nat) : State :=
  let g := s.mgmt
  match op with
  | 1 => if g.owner = 0 then s.setMgmt { g with owner := masterCode m, hbSince := s.now } else s
  | 2 => if g.owner = masterCode m then s.setMgmt { g with owner := 0, handoverTarget := 0 } else s
  | 3 => if g.owner = masterCode m then s.setMgmt { g with hbSince := s.now } else s
  | 4 =>
    let present : Bool := match target with | 1 => s.hasMaster .pfA | 2 => s.hasMaster .pfB | 3 => true | _ => false
    if g.owner = masterCode m ∧ present ∧ target ≠ (masterCode m).toNat then s.setMgmt { g with handoverTarget := BitVec.ofNat 4 target } else s
  | 5 => if g.handoverTarget = masterCode m then s.own (masterCode m) else s
  | _ => s

/-- A write that the block does not take is answered with ERROR through MCTP (R52, R425). -/
def State.writeError (s : State) (m : Master) : State := match m with | .bmc => s.signal .mctpError | _ => s

/-- A write of own_cmd by a master. -/
def State.ownWrite (s : State) (m : Master) (op target : Nat) : State :=
  if !s.hasMaster m then s else if s.booted then s.ownCmd m op target else s.writeError m

/-- CLAIM (R54). -/
def execClaim (m : Master) (s : State) : Host.Outcome State Fault Refusal :=
  .next (s.ownWrite m 1 0)

/-- RELEASE (R54). -/
def execRelease (m : Master) (s : State) : Host.Outcome State Fault Refusal :=
  .next (s.ownWrite m 2 0)

/-- HEARTBEAT (R54). -/
def execHeartbeat (m : Master) (s : State) : Host.Outcome State Fault Refusal :=
  .next (s.ownWrite m 3 0)

/-- HANDOVER (R54). -/
def execHandover (m : Master) (target : BitVec 4) (s : State) : Host.Outcome State Fault Refusal :=
  .next (s.ownWrite m 4 target.toNat)

/-- ACCEPT (R54). -/
def execAccept (m : Master) (s : State) : Host.Outcome State Fault Refusal :=
  .next (s.ownWrite m 5 0)

/-- OWNERSHIP_LAPSE (R54). -/
def execOwnershipLapse (s : State) : Host.Outcome State Fault Refusal :=
  .next (
    if s.mgmt.owner ≠ 0 ∧ 10000 ≤ s.hbAge then
      let s := s.setMgmt { s.mgmt with owner := 0, handoverTarget := 0, lapseCount := s.mgmt.lapseCount + 1 }
      let s := s.pfVectors 0
      s.signal (.notify 1 s.ownStatus)
    else s)

/-- PF_FLR (R66). -/
def execPfFlr (portB : Bool) (s : State) : Host.Outcome State Fault Refusal :=
  .next (s.ownCmd (if portB then .pfB else .pfA) 2 0)

/-! ## Staged registers (R56, R59, R71, R229, R289, R387) -/

/-- A write into a descriptor window. pd_bw and pd_watchdog take effect at once, the rest is staged. -/
def State.descWrite (s : State) (p off : Nat) (w : BitVec 64) : State :=
  let x := s.part p
  let g := x.staged
  let frame := w &&& 0xFFFFFFFE00000#64
  let low := w &&& 0xFFFFFFFF#64
  let stage := fun (g : Staged) => s.setPart p { x with staged := g }
  match off with
  | 0x00 => stage { g with ctl := some (w &&& 0xFFFF00001F00#64) }
  | 0x18 => stage { g with key := some w }
  | 0x20 =>
    let now := (List.range 4).map (fun k => (k, x.bucket k s.now))
    s.setPart p { x with
      buckets := now.foldl (fun (m : SMap Bucket) b => SMap.set {} m b.1 b.2) x.buckets
      bwHost := w.extractLsb' 48 16, bwYareno := w.extractLsb' 32 16, bwCxl := w.extractLsb' 16 16, bwHbm := w.extractLsb' 0 16 }
  | 0x28 => stage { g with bwDepth := some (w &&& 0xFF#64) }
  | 0x30 => stage { g with asid := some (w &&& 0xFFFFFFFF80000#64) }
  | 0x38 => stage { g with kv1Base := some frame }
  | 0x40 => stage { g with kv1Size := some low }
  | 0x48 => stage { g with kv2Base := some frame }
  | 0x50 => stage { g with kv2Size := some low }
  | 0x58 => stage { g with kvShape := some (w &&& 0x73FFFFFF#64) }
  | 0x60 => stage { g with crockBase := some frame }
  | 0x68 => stage { g with crockSize := some low }
  | 0x70 => s.setPart p { x with pageLimit := w.extractLsb' 32 32, stall := w.extractLsb' 0 32 }
  | 0x78 => stage { g with shareKey := some w }
  | _ =>
    if 0x80 ≤ off ∧ off < 0xA0 ∧ off % 8 = 0 then
      stage { g with cxl := SMap.set none g.cxl ((off - 0x80) / 8) (some (w &&& 0xFFFF0000FFFF#64)) }
    else s

/-- The value in force of a descriptor register. -/
def Partition.descRead (x : Partition) (off : Nat) : BitVec 64 :=
  match off with
  | 0x00 => BitVec.ofNat 64 (x.shareId.toNat * 2 ^ 32 + (if x.vfPort then 2 ^ 12 else 0) + x.vfIndex.toNat * 2 ^ 8
      + (if x.shareEnable then 2 else 0) + (if x.live then 1 else 0))
  | 0x08 => zx x.islands
  | 0x10 => x.groups
  | 0x20 => BitVec.ofNat 64 (x.bwHost.toNat * 2 ^ 48 + x.bwYareno.toNat * 2 ^ 32 + x.bwCxl.toNat * 2 ^ 16 + x.bwHbm.toNat)
  | 0x28 => zx x.bwDepth
  | 0x30 => x.asidTable
  | 0x38 => x.kv1Base
  | 0x40 => zx x.kv1Size
  | 0x48 => x.kv2Base
  | 0x50 => zx x.kv2Size
  | 0x58 => x.kvShape
  | 0x60 => x.crockBase
  | 0x68 => zx x.crockSize
  | 0x70 => BitVec.ofNat 64 (x.pageLimit.toNat * 2 ^ 32 + x.stall.toNat)
  | _ => if 0x80 ≤ off ∧ off < 0xA0 ∧ off % 8 = 0 then SMap.get 0 x.cxl ((off - 0x80) / 8) else 0

/-- pd_ctl as CREATE or APPLY would leave it. -/
def Partition.nextCtl (x : Partition) : BitVec 64 := x.staged.ctl.getD (x.descRead 0)

/-- Function slot of a pd_ctl value. -/
def ctlSlot (w : BitVec 64) : Nat := bits w 12 1 * 16 + bits w 8 4

/-- The partition with its staged fields in force; the pools and the shape only when `kv` holds (R289). -/
def Partition.applied (x : Partition) (kv : Bool) : Partition :=
  let g := x.staged
  let ctl := x.nextCtl
  let x := { x with
    shareId := ctl.extractLsb' 32 16, vfPort := bit ctl 12, vfIndex := ctl.extractLsb' 8 4
    key := g.key.getD x.key, bwDepth := (g.bwDepth.getD (zx x.bwDepth)).setWidth 8
    cxl := g.cxl.foldl (fun (m : SMap (BitVec 64)) e => match e.2 with | some v => SMap.set 0 m e.1 v | none => m) x.cxl
    asidTable := g.asid.getD x.asidTable
    crockBase := g.crockBase.getD x.crockBase, crockSize := (g.crockSize.getD (zx x.crockSize)).setWidth 32
    staged := { kv1Base := g.kv1Base, kv1Size := g.kv1Size, kv2Base := g.kv2Base, kv2Size := g.kv2Size, kvShape := g.kvShape } }
  if kv then
    { x with
      kv1Base := g.kv1Base.getD x.kv1Base, kv1Size := (g.kv1Size.getD (zx x.kv1Size)).setWidth 32
      kv2Base := g.kv2Base.getD x.kv2Base, kv2Size := (g.kv2Size.getD (zx x.kv2Size)).setWidth 32
      kvShape := g.kvShape.getD x.kvShape, staged := {} }
  else x

/-- All buckets of a partition full. -/
def Partition.filled (x : Partition) (now : BitVec 64) : Partition :=
  { x with buckets := (List.range 4).foldl (fun (m : SMap Bucket) k => SMap.set {} m k { count := x.bucketMax, since := now }) x.buckets }

/-- Staged writes g with those of h before them. -/
def Staged.over (g h : Staged) : Staged :=
  let o := fun (a b : Option (BitVec 64)) => match a with | some x => some x | none => b
  { ctl := o g.ctl h.ctl, key := o g.key h.key, shareKey := o g.shareKey h.shareKey, bwDepth := o g.bwDepth h.bwDepth
    cxl := g.cxl.foldl (fun (m : SMap (Option (BitVec 64))) e => SMap.set none m e.1 e.2) h.cxl
    asid := o g.asid h.asid, kv1Base := o g.kv1Base h.kv1Base, kv1Size := o g.kv1Size h.kv1Size, kv2Base := o g.kv2Base h.kv2Base
    kv2Size := o g.kv2Size h.kv2Size, kvShape := o g.kvShape h.kvShape, crockBase := o g.crockBase h.crockBase
    crockSize := o g.crockSize h.crockSize }

/-- Put the staged fields g in force: buckets full, and a staged sharing key set for the share_id left in force (R65, R71). What was staged
since stays staged, with the pools that a partition holding nodes keeps (R289). -/
def State.takeStaged (s : State) (p : Nat) (kv : Bool) (g : Staged) : State :=
  let x := s.part p
  let y := ({ x with staged := g } : Partition).applied kv
  let s := s.setPart p (({ y with staged := x.staged.over y.staged } : Partition).filled s.now)
  match g.shareKey with
  | some k => if y.shareId = 0 then s else { s with shareKeys := SMap.set 0 s.shareKeys y.shareId.toNat k }
  | none => s

/-! ## Checks of the partition commands (R61) -/

def cmdUnit (w : BitVec 64) : Nat := bits w 32 8
def cmdSrc (w : BitVec 64) : Option Nat := if bit w 4 then none else some (bits w 16 4)
def cmdDest (w : BitVec 64) : Option Nat := if bit w 5 then none else some (bits w 20 4)

/-- BAD_OP: a reserved op, a nonzero reserved bit, a unit out of range, a MOVE from the free pool to itself. -/
def badCommand (w : BitVec 64) : Bool :=
  let op := bits w 0 4
  op == 0 || decide (5 < op) || w &&& 0xFFFFFF00FF00FFC0#64 != 0
    || (op == 3 && decide (16 ≤ cmdUnit w)) || (op == 4 && decide (64 ≤ cmdUnit w))
    || ((op == 3 || op == 4) && bit w 4 && bit w 5)

def State.isLive (s : State) (p : Option Nat) : Bool := match p with | some p => (s.part p).live | none => true

/-- A unit belongs to the source: to that partition, or to none for the free pool. -/
def State.holdsUnit (s : State) (island : Bool) (src : Option Nat) (u : Nat) : Bool :=
  let has := fun p => (s.part p).live && (if island then bit (s.part p).islands u else bit (s.part p).groups u)
  match src with
  | some p => has p
  | none => !(List.range 16).any has

/-- A node lies in a range of addresses: its record, its map or a page does (R64). -/
def Node.liesIn (n : Node) (r : Nat) (f : Nat → Bool) : Bool := f r || n.frames.any f

/-- A node that a group or range may not lose: OPEN, referenced or leased (R61). -/
def Node.pinned (n : Node) (now : BitVec 64) : Bool := n.state == .opened || n.refs != 0 || decide (now < n.leaseExpiry)

def State.pinnedIn (s : State) (p : Nat) (f : Nat → Bool) : Bool :=
  s.nodes.any (fun (x : Nat × Option Node) => match x.2 with
    | some n => n.part == p && n.liesIn x.1 f && n.pinned s.now
    | none => false)

def State.hasJobs (s : State) (p : Nat) : Bool :=
  s.jobs.any (fun (x : Nat × Option Job) => x.1 / 64 == p && x.2.isSome)

/-- The VF that pd_ctl would bind is bound to another live partition, or its port is absent. -/
def State.badVf (s : State) (p : Nat) (slot : Nat) : Bool :=
  !s.fuses.hostPorts.getLsbD (slot / 16)
    || (List.range 16).any (fun q => q != p && (s.part q).live && (s.part q).functionSlot == slot)

/-- Some range of the partition as it would be shares a byte with a range of another live partition. -/
def State.overlaps (s : State) (p : Nat) (y : Partition) : Bool :=
  (List.range 16).any (fun q => q != p && (s.part q).live && (List.range 4).any (fun i => (List.range 4).any (fun j =>
    let a := y.cxlRange i
    let b := (s.part q).cxlRange j
    decide (a.1 < a.2 ∧ b.1 < b.2 ∧ a.1 < b.2 ∧ b.1 < a.2))))

/-- The code of a command's checks, in the order of R61; 0 is OK. -/
def State.checkCommand (s : State) (w : BitVec 64) : BitVec 8 :=
  let op := bits w 0 4
  let d := bits w 20 4
  let sr := bits w 16 4
  let x := s.part d
  let y := x.applied true
  if badCommand w then 1
  else match op with
    | 1 =>
      if x.live then 2
      else if s.badVf d (ctlSlot x.nextCtl) then 8
      else if s.overlaps d y then 9 else 0
    | 2 =>
      if !(s.part sr).live then 3
      else if (s.part sr).islands ≠ 0 ∨ (s.part sr).groups ≠ 0 ∨ s.hasJobs sr then 7 else 0
    | 5 =>
      if !x.live then 3
      else if s.pinnedIn d (withdrawn x y) then 6
      else if ctlSlot x.nextCtl ≠ x.functionSlot ∧ s.hasJobs d then 7
      else if s.badVf d (ctlSlot x.nextCtl) then 8
      else if s.overlaps d y then 9 else 0
    | _ =>
      let island := op == 3
      if !s.isLive (cmdSrc w) || !s.isLive (cmdDest w) then 3
      else if !s.holdsUnit island (cmdSrc w) (cmdUnit w) then 4
      else if (if island then !s.islandPresent (cmdUnit w) else s.groupPcs (cmdUnit w) == 0) then 5
      else if !island && (match cmdSrc w with | some p => s.pinnedIn p (inGroup (cmdUnit w)) | none => false) then 6
      else 0

/-! ## Effects of the partition commands (R62-R64) -/

/-- Evict the nodes of a partition that `pick` names, in the order of R310. -/
def State.evictAll (s : State) (p : Nat) (pick : Nat → Node → Bool) : Nat → State
  | 0 => s
  | fuel + 1 =>
    match firstOf (s.nodes.filterMap (fun (x : Nat × Option Node) => match x.2 with
      | some n => if n.part = p ∧ (n.state = .sealed ∨ n.state = .remote) ∧ pick x.1 n then some (x.1, n) else none
      | none => none)) with
    | some (r, n) => (s.evict r n).evictAll p pick fuel
    | none => s

/-- Another live partition of the same sharing group finds the node under its own key (R62, R71). -/
def State.alsoHeld (s : State) (p : Nat) (n : Node) : Bool :=
  (List.range 16).any (fun q => q != p && (s.part q).live && (s.part q).shareEnable && (s.part q).shareId != 0
    && (s.part q).shareId == (s.part p).shareId && s.sigma q == n.sigma)

/-- Accesses of a partition's units to some addresses are on their way: packets, posted adds and late stores. A copy's windows are moved whole, so
none of its accesses is under way between steps. -/
def State.partAccesses (s : State) (p : Nat) (f : Nat → Bool) : Bool :=
  s.clusters.any (fun (x : Nat × Cluster) => x.2.packets.any (fun (y : Nat × Option Packet) => match y.2 with
      | some k => s.partOfBank k.bank == p && !k.failed && f k.pa
      | none => false))
    || s.banks.any (fun (x : Nat × Bank) => s.partOfBank x.1 == p
      && (x.2.fladds.any (fun a => f a.pa) || x.2.late.any (fun a => f a.pa || f (a.pa + a.bytes.length - 1))))

/-- A page of the handle lies at an address for which `f` holds. What is lost has whole GiB, so one address in each tells. -/
def Handle.reaches (h : Handle) (f : Nat → Bool) : Bool :=
  (List.range (h.size / 2 ^ 30)).any (fun i => f (h.frame + i * 2 ^ 30)) || f h.frame || f (h.frame + h.size - 1)

/-- Every translation of a partition that names a frame for which `f` holds is revoked. -/
def State.revokeFrames (s : State) (p : Nat) (f : Nat → Bool) : State :=
  s.revokeHandles (fun u => match u with | some u => u.part == p | none => false)
    (fun h => h.reaches f && (h.state == HandleState.valid || h.result == some HandleState.valid))

def State.begin (s : State) (c : PartCommand) : State := s.setMgmt { s.mgmt with running := some c }

/-- CREATE: live, with no islands and no groups, counters 0, page requests from 1 (R62, R87, R384, R411). -/
def State.create (s : State) (p : Nat) : State :=
  let old := s.part p
  let s := (s.setPart p { old with staged := {} }).takeStaged p true old.staged
  let s := s.setPart p { (s.part p) with live := true, islands := 0, groups := 0, schedPops := 0, schedPreempts := 0, schedReserves := 0,
                                         scopeCount := 0, nextReq := 1, requests := [], answers := [] }
  s.begin { code := 0, old := some (p, old) }

/-- A node in the tier that only this partition holds. -/
def State.ownInTier (s : State) (p : Nat) (n : Node) : Bool := n.part == p && n.tier == 2 && !s.alsoHeld p n

/-- Drop the nodes that DESTROY drops, each by the steps of R311, those without children first in the order of R310. -/
def State.dropOwn (s : State) (p : Nat) : Nat → State
  | 0 => s
  | fuel + 1 =>
    let all := s.nodes.filterMap (fun (x : Nat × Option Node) => match x.2 with
      | some n => if s.ownInTier p n ∧ n.state ≠ .evicting then some (x.1, n) else none
      | none => none)
    let leaves := all.filter (fun x => x.2.refs == 0)
    match firstOf (if leaves.isEmpty then all else leaves) with
    | some (r, n) => (s.evict r n).dropOwn p fuel
    | none => s

/-- DESTROY. It ends once no reader holds up the drop of a node (R311, step 2). -/
def State.destroy (s : State) (p : Nat) : State :=
  let s := s.dropOwn p s.nodeFuel
  let s := { s with churn := freeSlotsOf (fun c => c.part == p) s.churn }
  let s := s.setPart p { (s.part p) with live := false }
  s.begin { code := 0, destroy := some p }

/-- A node that DESTROY drops is still there. -/
def State.dropsLeft (s : State) (p : Nat) : Bool :=
  s.nodes.any (fun (x : Nat × Option Node) => match x.2 with
    | some n => s.ownInTier p n && n.state == NodeState.evicting
    | none => false)

/-! Commands that take addresses from a partition (R59, R64): its nodes there are evicted, then its translations there are revoked and the
partition loses the addresses, then the accesses on their way end. -/

/-- The partition a command takes addresses from. -/
def PartCommand.loser (c : PartCommand) : Option Nat := match c.apply with | some (p, _) => some p | none => if c.group.isSome then c.src else none

/-- A node of the partition still lies in what the command takes (R64, step 1). -/
def State.nodesLeft (s : State) (c : PartCommand) (p : Nat) : Bool :=
  s.nodes.any (fun (x : Nat × Option Node) => match x.2 with
    | some n => n.part == p && n.liesIn x.1 (c.loses p)
    | none => false)

/-- A MOVE_GROUP's group leaves its source; an APPLY's staged fields take effect, and its Churn regions are invalidated. -/
def State.giveUp (s : State) (c : PartCommand) (p : Nat) : State :=
  let s := s.revokeFrames p (c.loses p)
  let s := s.begin { c with gaveUp := true }
  let s := match c.group with
    | some g => s.setPart p { (s.part p) with groups := (s.part p).groups &&& ~~~(BitVec.ofNat 64 (2 ^ g)) }
    | none => s
  match c.apply, c.old with
  | some _, some (_, old) =>
    let holds := s.nodes.any (fun (x : Nat × Option Node) => match x.2 with | some n => n.part == p | none => false)
    let s := s.takeStaged p (!holds) old.staged
    { s with churn := freeSlotsOf (fun c => c.part == p) s.churn }
  | _, _ => s

/-- Once no node is left there, what the command takes is given up. -/
def State.tryGiveUp (s : State) (c : PartCommand) : State :=
  match c.loser with
  | some p => if c.gaveUp || s.nodesLeft c p then s else s.giveUp c p
  | none => s

/-- A command that takes addresses from a partition starts. -/
def State.startLoss (s : State) (c : PartCommand) : State :=
  match c.loser with
  | some p => ((s.begin c).evictAll p (fun r n => n.liesIn r (c.loses p)) (s.nodes.length + 1)).tryGiveUp c
  | none => s.begin c

/-- APPLY, with what is staged when it starts. Tier addresses that it withdraws are first given up as in R64. -/
def State.apply (s : State) (p : Nat) : State :=
  let old := s.part p
  (s.setPart p { old with staged := {} }).startLoss { code := 0, parts := [p], old := some (p, old), apply := some (p, old.applied true) }

/-- MOVE_GROUP, steps 1 and 2: then the source's translations and pools do not reach the group. -/
def State.startMoveGroup (s : State) (g : Nat) (src dest : Option Nat) : State :=
  s.startLoss { code := 0, parts := src.toList ++ dest.toList, group := some g, src := src, dest := dest }

/-- Reservations on the cores of an island end. -/
def State.dropReservations (s : State) (i : Nat) : State :=
  let cs := (List.range 192).filter (fun c => islandOf c = i)
  cs.foldl (fun (s : State) c =>
    match (s.core c).reserved with
    | none => s
    | some _ =>
      let s := s.setCore c { (s.core c) with reserved := none }
      { s with parts := s.parts.map (fun x => (x.1, { x.2 with waiting := x.2.waiting.map (fun w =>
          match w.reserved with
          | some (k, _) => if k = c then { w with reserved := none } else w
          | none => w) })) }) s

/-- The banks of an island's clusters, bank A and bank B of each. -/
def islandBanks (i : Nat) : List Nat := ((List.range 1536).filter (fun b => islandOf (b / 8) = i))

/-- Pre-empt every uncommitted unit of an island (R63, step 2). -/
def State.clearIsland (s : State) (i : Nat) : State :=
  (islandBanks i).foldl (fun (s : State) b =>
    match (s.bank b).unit with
    | some u => if u.member = 0 ∧ !u.committed then s.leave b .victim else s
    | none => s) s

/-- MOVE_ISLAND, steps 1 and 2. -/
def State.startMoveIsland (s : State) (i : Nat) (src dest : Option Nat) : State :=
  let s := s.begin { code := 0, parts := src.toList ++ dest.toList, island := some i, src := src, dest := dest }
  (s.dropReservations i).clearIsland i

/-- No unit is left on an island (R63, step 3). -/
def State.islandQuiet (s : State) (i : Nat) : Bool := (islandBanks i).all (fun b => (s.bank b).unit.isNone)

/-- A core whose contents have been zeroed (R63, step 4). What step 4 does not list stays. -/
def Core.zeroed (c : Core) : Core :=
  { spFailed := c.spFailed, rebuild0 := c.rebuild0, rebuild1 := c.rebuild1, vat := { c.vat with idle := 1024, asleep := true, lease := none } }

/-- What becomes of the present cores of an island, whose clusters and banks are empty then. -/
def State.clearCores (s : State) (i : Nat) (f : Core → Core) : State :=
  ((List.range 192).filter (fun c => islandOf c = i && s.corePresent c)).foldl (fun (s : State) c =>
    let s := s.setCore c (f (s.core c))
    (List.range 4).foldl (fun (s : State) k =>
      ((s.setCluster (4 * c + k) {}).setBank (8 * c + 2 * k) {}).setBank (8 * c + 2 * k + 1) {}) s) s

/-- Step 4 for the present cores of an island. -/
def State.zeroIsland (s : State) (i : Nat) : State := s.clearCores i Core.zeroed

/-- Steps 4 to 7. -/
def State.endMoveIsland (s : State) (i : Nat) (src dest : Option Nat) : State :=
  let s := s.zeroIsland i
  let s := { s with churn := freeSlotsOf (fun c => src == some c.part || dest == some c.part) s.churn }
  let s := if SMap.get 0 s.mgmt.domState i = 2 then s.setMgmt { s.mgmt with domState := SMap.set 0 s.mgmt.domState i 0 } else s
  let s := match src with
    | some p => s.setPart p { (s.part p) with islands := (s.part p).islands &&& ~~~(BitVec.ofNat 16 (2 ^ i)) }
    | none => s
  match dest with
  | some p => s.setPart p { (s.part p) with islands := (s.part p).islands ||| BitVec.ofNat 16 (2 ^ i) }
  | none => s

/-- Every region from a byte address up to another is not live: it reads as zeros with clear tags. -/
def State.killRegions (s : State) (lo hi : Nat) : State :=
  { s with
    mem := SMap.clear lo hi s.mem, tags := SMap.clear (lo / 8) (hi / 8) s.tags
    lineMeta := SMap.clear (lo / 128) (hi / 128) s.lineMeta, liveRegions := SMap.clear (lo / 2 ^ 20) (hi / 2 ^ 20) s.liveRegions
    badSectors := SMap.clear (lo / 32) (hi / 32) s.badSectors, softSectors := SMap.clear (lo / 32) (hi / 32) s.softSectors
    badMetaBlocks := SMap.clear (lo / 128) (hi / 128) s.badMetaBlocks, scopes := SMap.clear (lo / 128) (hi / 128) s.scopes
    scrubs := s.scrubs.filter (fun x => decide (128 * x.line < lo ∨ hi ≤ 128 * x.line))
    records := s.records.filter (fun r => decide (r.header < lo ∨ hi ≤ r.header)) }

/-- Steps 4 and 5 of MOVE_GROUP; the mailbox of groups 0 and 32 keeps its contents. -/
def State.endMoveGroup (s : State) (g : Nat) (dest : Option Nat) : State :=
  let top := if g = 0 ∨ g = 32 then s.groupPcs g * 2 ^ 30 - 2 ^ 27 else 2 ^ 33
  let s := s.killRegions (g * 2 ^ 33) (g * 2 ^ 33 + top)
  match dest with
  | some p => s.setPart p { (s.part p) with groups := (s.part p).groups ||| BitVec.ofNat 64 (2 ^ g) }
  | none => s

/-- A write of part_cmd: ignored while a command runs. -/
def State.partCmd (s : State) (w : BitVec 64) : State :=
  if s.mgmt.running.isSome then s
  else
    let c := s.checkCommand w
    if c ≠ 0 then s.begin { code := c }
    else match bits w 0 4 with
      | 1 => s.create (bits w 20 4)
      | 2 => s.destroy (bits w 16 4)
      | 3 => s.startMoveIsland (cmdUnit w) (cmdSrc w) (cmdDest w)
      | 4 => s.startMoveGroup (cmdUnit w) (cmdSrc w) (cmdDest w)
      | _ => s.apply (bits w 20 4)

/-- What a command still waits for before it ends. -/
def State.commandWaits (s : State) (c : PartCommand) : Bool :=
  (match c.island with | some i => !s.islandQuiet i | none => false)
    || (match c.destroy with | some p => s.dropsLeft p | none => false)
    || (match c.loser with | some p => !c.gaveUp || s.partAccesses p (c.loses p) | none => false)

/-- The end of a command: what is left of it, then busy, code and notices (R60, R66). -/
def State.endCommand (s : State) (c : PartCommand) : State :=
  let s := match c.island with | some i => s.endMoveIsland i c.src c.dest | none => s
  let s := match c.group with | some g => s.endMoveGroup g c.dest | none => s
  let s := s.setMgmt { s.mgmt with running := none, partCode := c.code }
  let s := s.partVectors c.parts
  match s.mgmt.owner.toNat with
  | 1 => s.signal (.pfVector false 1)
  | 2 => s.signal (.pfVector true 1)
  | 3 => s.signal (.notify 2 s.partStatus)
  | _ =>
    let s := s.pfVectors 1
    s.signal (.notify 2 s.partStatus)

/-- PART_CMD_COMPLETE (R60). -/
def execPartCmdComplete (s : State) : Host.Outcome State Fault Refusal :=
  .next (match s.mgmt.running with
    | some c => if s.commandWaits c then s.tryGiveUp c else s.endCommand c
    | none => s)

/-! ## Power domains (R422, R423) -/

/-- pwr_dom_i. -/
def State.domReg (s : State) (i : Nat) : BitVec 64 :=
  BitVec.ofNat 64 ((SMap.get 675 s.mgmt.domMv i).toNat * 2 ^ 32
    + (SMap.get (if i < 16 then 1250 else 2000) s.mgmt.domMhz i).toNat * 2 ^ 8
    + (SMap.get 0 s.mgmt.domState i).toNat * 4 + (SMap.get 0 s.mgmt.domReq i).toNat)

def State.setDom (s : State) (i : Nat) (req : BitVec 2) (state : BitVec 2) : State :=
  s.setMgmt { s.mgmt with domReq := SMap.set 0 s.mgmt.domReq i req, domState := SMap.set 0 s.mgmt.domState i state }

/-- A write of a domain's req. OFF is accepted only for an island of the free pool; the island's state is lost. -/
def State.domWrite (s : State) (i : Nat) (req : BitVec 2) : State :=
  if req = 3 ∨ 18 ≤ i then s
  else if req = 2 then
    if i < 16 ∧ s.holdsUnit true none i then (s.clearCores i (fun _ => {})).setDom i 2 2 else s
  else
    let st := SMap.get 0 s.mgmt.domState i
    s.setDom i req (if req = 1 ∨ st = 2 then 0 else st)

/-! ## The management block (R51, R52) -/

/-- A register of the block that the owner writes. -/
def State.regWrite (s : State) (off : Nat) (w : BitVec 64) : State :=
  if off = 0x100 then s.partCmd w
  else if off = 0x300 then s.setMgmt { s.mgmt with domCfg := w.extractLsb' 0 16 }
  else if off = 0x500 then s.setMgmt { s.mgmt with limitW := w.extractLsb' 0 16 }
  else if 0x510 ≤ off ∧ off < 0x5A0 ∧ off % 8 = 0 then s.domWrite ((off - 0x510) / 8) (w.extractLsb' 0 2)
  else if 0x1000 ≤ off ∧ off < 0x2000 then s.descWrite ((off - 0x1000) / 256) (off % 256) w
  else s

/-- A write by a master is refused (R52). -/
def State.refuses (s : State) (m : Master) (off : Nat) : Bool := off != 8 && s.mgmt.owner != masterCode m

/-- A write of 8 bytes at an offset of the block by a master. -/
def State.mgmtWrite (s : State) (m : Master) (off : Nat) (w : BitVec 64) : State :=
  if !s.hasMaster m then s
  else if !s.booted then s.writeError m
  else if off = 8 then s.ownCmd m (bits w 0 4) (bits w 4 4)
  else if s.refuses m off then (s.setMgmt { s.mgmt with refused := satInc s.mgmt.refused }).writeError m
  else s.regWrite off w

/-- The partition as reads see it: its staged registers as they were before a CREATE or APPLY that runs (R56). -/
def State.shownPart (s : State) (p : Nat) : Partition :=
  let y := s.part p
  match s.mgmt.running with
  | some { old := some (q, x), .. } =>
    if p = q then
      { y with shareId := x.shareId, vfPort := x.vfPort, vfIndex := x.vfIndex, bwDepth := x.bwDepth, asidTable := x.asidTable, cxl := x.cxl
               kv1Base := x.kv1Base, kv1Size := x.kv1Size, kv2Base := x.kv2Base, kv2Size := x.kv2Size, kvShape := x.kvShape
               crockBase := x.crockBase, crockSize := x.crockSize }
    else y
  | _ => y

/-- 8 bytes of the RAS log from an offset of the block (R415). -/
def State.rasRead (s : State) (off : Nat) : BitVec 64 :=
  let e := SMap.get {} s.mgmt.rasLog ((off - 0x800) / 16)
  if off % 16 = 0 then e.addr
  else BitVec.ofNat 64 (e.time.toNat * 2 ^ 32 + e.unit.toNat * 2 ^ 24 + e.part.toNat * 2 ^ 16 + e.kind.toNat * 2 ^ 8 + e.source.toNat)

/-- An entry of the RAS log has been read (R415). -/
def State.rasSeen (s : State) (off : Nat) : State :=
  s.setMgmt { s.mgmt with rasUnread := SMap.set false s.mgmt.rasUnread ((off - 0x800) / 16) false }

/-- A read of 8 bytes at an offset: the state after it (refused_writes is cleared by a read, a log entry counts as read) and the value. -/
def State.mgmtRead (s : State) (off : Nat) : State × BitVec 64 :=
  if off = 0x10 then (s.setMgmt { s.mgmt with refused := 0 }, zx s.mgmt.refused)
  else if 0x800 ≤ off ∧ off < 0x1000 ∧ off % 8 = 0 then (s.rasSeen off, s.rasRead off)
  else (s,
    if off = 0 then s.ownStatus
    else if off = 0x108 then s.partStatus
    else if 0x200 ≤ off ∧ off < 0x250 ∧ off % 8 = 0 then s.cxlRangeOf ((off - 0x200) / 8)
    else if off = 0x300 then zx s.mgmt.domCfg
    else if off = 0x500 then BitVec.ofNat 64 (s.mgmt.measuredW.toNat * 2 ^ 32 + s.mgmt.limitW.toNat)
    else if 0x510 ≤ off ∧ off < 0x5A0 ∧ off % 8 = 0 then s.domReg ((off - 0x510) / 8)
    else if off = 0x5A0 then s.thermStatus
    else if off = 0x600 then
      BitVec.ofNat 64 (s.mgmt.bootSvn.toNat * 2 ^ 16 + s.mgmt.bootStage.toNat * 2 ^ 8 + s.mgmt.bootResult.toNat)
    else if 0x1000 ≤ off ∧ off < 0x2000 then (s.shownPart ((off - 0x1000) / 256)).descRead (off % 256)
    else 0)

/-- A write of part_cmd by a master, when it holds the command with this op. -/
def State.partCmdWrite (s : State) (m : Master) (op : Nat) (w : BitVec 64) : State :=
  if bits w 0 4 = op then s.mgmtWrite m 0x100 w else s

/-- CREATE (R62). -/
def execPartCreate (m : Master) (w : BitVec 64) (s : State) : Host.Outcome State Fault Refusal :=
  .next (s.partCmdWrite m 1 w)

/-- DESTROY (R62). -/
def execPartDestroy (m : Master) (w : BitVec 64) (s : State) : Host.Outcome State Fault Refusal :=
  .next (s.partCmdWrite m 2 w)

/-- MOVE_ISLAND (R63). Steps 1 and 2; PART_CMD_COMPLETE makes the others. -/
def execMoveIsland (m : Master) (w : BitVec 64) (s : State) : Host.Outcome State Fault Refusal :=
  .next (s.partCmdWrite m 3 w)

/-- MOVE_GROUP (R64). Steps 1 and 2; PART_CMD_COMPLETE makes the others. -/
def execMoveGroup (m : Master) (w : BitVec 64) (s : State) : Host.Outcome State Fault Refusal :=
  .next (s.partCmdWrite m 4 w)

/-- APPLY (R62). -/
def execPartApply (m : Master) (w : BitVec 64) (s : State) : Host.Outcome State Fault Refusal :=
  .next (s.partCmdWrite m 5 w)

/-- MANAGEMENT_REGISTER_WRITE (R52). -/
def execManagementRegisterWrite (m : Master) (off : Nat) (w : BitVec 64) (s : State) : Host.Outcome State Fault Refusal :=
  .next (s.mgmtWrite m off w)

/-- REFUSED_WRITES_READ (R53). -/
def execRefusedWritesRead (m : Master) (s : State) : Host.Outcome State Fault Refusal :=
  .next (if s.hasMaster m then (s.mgmtRead 0x10).1.signal (.readData (s.mgmtRead 0x10).2) else s)

/-- PWR_DOM_REQ (R423). -/
def execPwrDomReq (m : Master) (i : Nat) (req : BitVec 2) (s : State) : Host.Outcome State Fault Refusal :=
  .next (s.mgmtWrite m (0x510 + 8 * i) (zx req))

/-- ISLAND_CLOCK_GATE (R423). -/
def execIslandClockGate (island : Nat) (s : State) : Host.Outcome State Fault Refusal :=
  .next (
    let busy := (islandBanks island).any (fun b => (s.bank b).unit.isSome)
      || (List.range 192).any (fun c => islandOf c == island && (s.core c).vat.lease.isSome)
    if SMap.get 0 s.mgmt.domReq island = 0 ∧ SMap.get 0 s.mgmt.domState island = 0 ∧ island < 16 ∧ !busy then s.setDom island 0 1
    else s)

/-! ## Clocks and temperature (R424) -/

/-- The cap in force. -/
def State.powerCap (s : State) : Nat := Nat.max 800 (Nat.min 2600 s.mgmt.limitW.toNat)

/-- The temperature of die k. -/
def dieTemp (temps : BitVec 48) (k : Nat) : Nat := bits temps (8 * k) 8

/-- Move the clocks of the RUN islands of dies by one step. -/
def State.stepClocks (s : State) (die : Nat → Bool) (f : Nat → Nat) : State :=
  s.setMgmt { s.mgmt with
    domMhz := (List.range 16).foldl (fun (m : SMap (BitVec 12)) i =>
      if die (i / 4) && SMap.get 0 s.mgmt.domState i == 0 then
        SMap.set 1250 m i (BitVec.ofNat 12 (f (SMap.get 1250 m i).toNat))
      else m) s.mgmt.domMhz }

/-- The sensors' readings reach the registers. -/
def State.readSensors (s : State) (watts : Nat) (temps : BitVec 48) : State :=
  s.setMgmt { s.mgmt with measuredW := BitVec.ofNat 16 watts, temps := temps }

/-- A die is at 110 °C. -/
def isCritical (temps : BitVec 48) : Bool := (List.range 6).any (fun k => decide (110 ≤ dieTemp temps k))

/-- The critical shutdown: everything stops and core power goes. -/
def State.shutDown (s : State) : State :=
  let s := s.signal (.notify 4 s.thermStatus)
  { s.setMgmt { s.mgmt with critical := true } with powered := false }

/-- Power is past its cap; compute die k has reached 100 °C. -/
def State.pastCap (s : State) (watts : Nat) : Bool := decide (s.powerCap < watts)
def hotDie (temps : BitVec 48) (k : Nat) : Bool := decide (k < 4) && decide (100 ≤ dieTemp temps k)

/-- The times at which each cause was last seen, brought up to now. -/
def State.seeCauses (s : State) (past : Bool) (hot : Nat → Bool) : State :=
  s.setMgmt { s.mgmt with
    cappedAt := if past then s.now else s.mgmt.cappedAt
    hotAt := ((List.range 4).filter hot).foldl (fun (m : SMap (BitVec 64)) k => SMap.set 0 m k s.now) s.mgmt.hotAt }

/-- THERMAL_THROTTLE (R424). One step of 25 MHz. -/
def execThermalThrottle (watts : Nat) (temps : BitVec 48) (s : State) : Host.Outcome State Fault Refusal :=
  .next (
    let s := s.readSensors watts temps
    let past := s.pastCap watts
    let hot := (List.range 4).any (hotDie temps)
    if isCritical temps then s.shutDown
    else if past || hot then
      let s := s.stepClocks (fun k => past || hotDie temps k) (fun mhz => Nat.max 625 (mhz - 25))
      let rose := (past && !s.mgmt.capped) || (hot && !s.mgmt.hot)
      let s := (s.setMgmt { s.mgmt with capped := s.mgmt.capped || past, hot := s.mgmt.hot || hot }).seeCauses past (hotDie temps)
      if rose then s.signal (.notify 3 s.thermStatus) else s
    else s)

/-- The cap, and the heat of die k, have cleared for 10 ms. -/
def State.capClear (s : State) (watts : Nat) : Bool :=
  !s.pastCap watts && (!s.mgmt.capped || decide (10000000 ≤ (s.now - s.mgmt.cappedAt).toNat))
def State.dieClear (s : State) (temps : BitVec 48) (k : Nat) : Bool :=
  !hotDie temps k && (!s.mgmt.hot || decide (10000000 ≤ (s.now - SMap.get 0 s.mgmt.hotAt k).toNat))

/-- The clocks of a compute die's islands are all at their full rate. -/
def State.fullSpeed (s : State) (k : Nat) : Bool := (List.range 4).all (fun i => SMap.get 1250 s.mgmt.domMhz (4 * k + i) == 1250)

/-- CLOCK_RESTORE (R424). One step of 25 MHz on the dies that no cause holds. A flag clears when its cause has cleared and no die that only it
had slowed is slow still (log 43). -/
def execClockRestore (watts : Nat) (temps : BitVec 48) (s : State) : Host.Outcome State Fault Refusal :=
  .next (
    let s := s.readSensors watts temps
    if isCritical temps then s.shutDown
    else
      let s := s.seeCauses (s.pastCap watts) (hotDie temps)
      let cap := s.capClear watts
      let die := s.dieClear temps
      let s := s.setMgmt { s.mgmt with
        domMhz := (List.range 16).foldl (fun (m : SMap (BitVec 12)) i =>
          if cap && die (i / 4) then SMap.set 1250 m i (BitVec.ofNat 12 (Nat.min 1250 ((SMap.get 1250 m i).toNat + 25))) else m)
          s.mgmt.domMhz }
      s.setMgmt { s.mgmt with
        capped := s.mgmt.capped && !(cap && (List.range 4).all (fun k => s.fullSpeed k || !die k))
        hot := s.mgmt.hot && !((List.range 4).all (fun k => die k && (s.fullSpeed k || !cap))) })

/-- CRITICAL_SHUTDOWN (R424). -/
def execCriticalShutdown (temps : BitVec 48) (s : State) : Host.Outcome State Fault Refusal :=
  .next (if isCritical temps then (s.setMgmt { s.mgmt with temps := temps }).shutDown else s)

/-- BUCKET_REFILL (R65). -/
def execBucketRefill (p : Nat) (which : BucketName) (s : State) : Host.Outcome State Fault Refusal :=
  .next (
    let k := match which with | .hbm => 0 | .cxl => 1 | .yareno => 2 | .host => 3
    let x := s.part p
    s.setPart p { x with buckets := SMap.set {} x.buckets k (x.bucket k s.now) })

/-! ## Job admission (R45-R47, R68, R435) -/

/-- A job record of 128 bytes (R45). -/
structure JobRecord where
  format : Nat
  slot : Nat
  flags : BitVec 8
  job : Job
  frameSize : Nat
  frameVa : BitVec 64
  first : Record
  deriving DecidableEq, Repr

def JobRecord.of (b : List Byte) : JobRecord :=
  let at' := fun o n => ofBytes ((b.drop o).take n)
  let flags := BitVec.ofNat 8 (at' 3 1)
  { format := at' 0 2, slot := at' 2 1, flags := flags
    job := { ctx := BitVec.ofNat 64 (at' 8 8), asid := BitVec.ofNat 16 (at' 16 2), graphLog2 := at' 18 1, launchLog2 := at' 19 1,
             doneOff := BitVec.ofNat 64 (at' 32 8), doneVal := BitVec.ofNat 64 (at' 40 8), seq := BitVec.ofNat 32 (at' 4 4),
             raise := bit flags 0, cancelOnFault := bit flags 1 }
    frameSize := at' 20 4, frameVa := BitVec.ofNat 64 (at' 24 8), first := Record.ofBytes ((b.drop 64).take 32) false }

/-- Bytes of a job's context (R42). -/
def Job.ctxSize (j : Job) : Nat := 16 * (258 + 2 ^ j.graphLog2 + 2 ^ j.launchLog2)

/-- The ranges admission translates: the context, and the frame when there is one. -/
def JobRecord.ranges (r : JobRecord) : List (Nat × Nat) :=
  (r.job.ctx.toNat, r.job.ctxSize) :: (if r.frameSize = 0 then [] else [(r.frameVa.toNat, r.frameSize)])

/-- One address in each 64 KiB page that ranges touch. -/
def pagesOf (rs : List (Nat × Nat)) : List (BitVec 64) :=
  rs.flatMap (fun r => (List.range ((r.1 + r.2 - 1) / 65536 - r.1 / 65536 + 1)).map (fun i =>
    BitVec.ofNat 64 (if i = 0 then r.1 else (r.1 / 65536 + i) * 65536)))

/-- A page of admission's ranges is translated, and its headers and entries lie in device memory (R31, R45); else its code. A later page that maps
host or peer memory is rejected with PERM as the header's is: R47 names no check of it (log 45). -/
def State.rangePage (s : State) (p : Nat) (asid : BitVec 16) (va : BitVec 64) : State × Option Code :=
  match s.walk p asid va { write := true } with
  | (s, .error c) => (s, some c)
  | (s, .ok g) => (s, if memKind g.frame = .hbm ∨ memKind g.frame = .tier then none else some cPERM)

/-- Walk the pages in order to the first that fails with a code of those asked for. -/
def State.walkRanges (s : State) (p : Nat) (asid : BitVec 16) (stop : Code → Bool) : List (BitVec 64) → State × Option (BitVec 64)
  | [] => (s, none)
  | va :: vas =>
    match s.rangePage p asid va with
    | (s, none) => s.walkRanges p asid stop vas
    | (s, some c) => if stop c then (s, some va) else s.walkRanges p asid stop vas

/-- A new counter entry, written whole with its reserved bytes zero (R6, R43). -/
def State.newCounter (s : State) (p : Nat) (j : Job) (l : WorkLevel) (id : Nat) (c : Counter) : State :=
  match s.entryPa p j l id with
  | (s, some a) => s.agentStore a (toBytes 4 c.outstanding.toNat ++ toBytes 4 c.retired.toNat ++ toBytes 2 c.parent.toNat
      ++ toBytes 1 c.state.toNat ++ toBytes 5 0)
  | (s, none) => s

/-- Write the header of a job's object at a virtual address. -/
def State.jobHeader (s : State) (p : Nat) (j : Job) (va : BitVec 64) (size16 kind : Nat) : State :=
  match s.agentPa p j.asid va with
  | (s, some a) => s.putHeader a p 0xFF size16 3 1 kind
  | (s, none) => s

/-- The admitted job's entry, headers and first record, in the order of R47; none when a count is full (R417). A frame size that is no
multiple of 16 counts whole granules, and headers are written over whatever lies there (log 63). -/
def State.admitJob (s : State) (p : Nat) (r : JobRecord) : Option State :=
  let j := r.job
  let rec1 : Record := { r.first with w1 := if r.frameSize = 0 then 0 else r.frameVa, tag := r.frameSize != 0 }
  let s := s.setJob p r.slot (some j)
  let s := s.jobHeader p j j.ctx (258 + 2 ^ j.graphLog2 + 2 ^ j.launchLog2) 0xFFF2
  let s := s.newCounter p j .job 0 { outstanding := 1, retired := 0, parent := 0, state := 1 }
  let s := if r.frameSize = 0 then s else s.jobHeader p j r.frameVa (r.frameSize / 16) 0xFFF3
  match s.account p rec1 true with
  | some s => some (s.enqueue p rec1 0 1 j.asid)
  | none => none

/-- The first of ctx, frame_va and done_off that is not aligned as R45 gives (log 64). -/
def JobRecord.misaligned (r : JobRecord) : Option (BitVec 64) :=
  if r.job.ctx.toNat % 4096 ≠ 0 then some r.job.ctx
  else if r.frameVa.toNat % 16 ≠ 0 then some r.frameVa
  else if r.job.doneOff.toNat % 8 ≠ 0 then some r.job.doneOff
  else none

/-- Admission's checks after those of the asid: the code, and the address a fault record shows. -/
def State.checkRanges (s : State) (p : Nat) (r : JobRecord) : State × Code × BitVec 64 :=
  let j := r.job
  match r.misaligned with
  | some va => (s, cALIGN, va)
  | none =>
    if (s.part p).groups = 0 then (s, cPAGE, j.ctx)
    else match s.walkRanges p j.asid (· == cPAGE) (pagesOf r.ranges) with
    | (s, some va) => (s, cPAGE, va)
    | (s, none) =>
      match s.walkRanges p j.asid (fun _ => true) (pagesOf r.ranges) with
      | (s, some va) => (s, cPERM, va)
      | (s, none) =>
        if j.doneOff.toNat < 0x40000 ∨ 0x800000 < j.doneOff.toNat + 8 then (s, cPERM, j.doneOff)
        else if r.first.job ≠ r.slot
            ∨ !(s.setJob p r.slot (some j)).recordOk p { r.first with w1 := 0 }
            ∨ s.levelFull p r.first.level then (s, cQUEUE, 0)
        else (s, 0, 0)

/-- The code of admission's checks, in order, with the address a fault record shows (R401, log 64); 0 when the job can be admitted. A
partition without groups has no mapped memory: its jobs fail with PAGE (R57). -/
def State.checkJob (s : State) (p : Nat) (r : JobRecord) : State × Code × BitVec 64 :=
  let j := r.job
  if r.format ≠ 1 ∨ bits r.flags 2 6 ≠ 0 then (s, cQUEUE, 0)
  else if 64 ≤ r.slot ∨ (s.job p r.slot).isSome then (s, cQUEUE, 0)
  else if 16 < j.graphLog2 ∨ 24 < j.launchLog2 then (s, cQUEUE, 0)
  else if (s.part p).groups = 0 then s.checkRanges p r
  else match s.asidValid p j.asid with
    | (s, true) => s.checkRanges p r
    | (s, false) => (s, cPERM, j.ctx)

/-- A rejected job's fault record (R47, R410). -/
def State.rejectJob (s : State) (p : Nat) (code : Code) (addr : BitVec 64) (job : Nat) (seq : BitVec 32) (launch graph phase : Nat) : State :=
  s.faultRecord p (recordBytes code 0 job 0 seq 0xFFFF 0 0 addr 0 launch graph phase s.now 0)

/-- Admission of one record (R47, R435). -/
def State.admission (s : State) (p : Nat) (r : JobRecord) : State :=
  let reject := fun (s : State) (c : Code) (va : BitVec 64) => s.rejectJob p c va r.slot r.job.seq r.first.launch r.first.graph r.first.phase
  match s.checkJob p r with
  | (s, c, va) =>
    if c ≠ 0 then reject s c va
    else match s.admitJob p r with
      | some s => s
      | none => reject s cQUEUE 0

/-- Read the records from job_head on, n of them, each before it is admitted (R46, R68). -/
def State.readRing (s : State) (p slot : Nat) : Nat → State
  | 0 => s
  | n + 1 =>
    let head := s.mbox32 slot 0x100
    let (s, v) := (s.touchMbox slot 0x100).agentRead (s.regionBase slot + 0x10000 + 128 * (head.toNat % 256)) 128
    let s := s.setMbox32 slot 0x100 (head + 1)
    (s.admission p (JobRecord.of (toBytes 128 v))).readRing p slot n

/-- JOB_RING_NOTIFY (R68). The read of the ring's tail is an acquire at system scope (R368). -/
def execJobRingNotify (slot : Nat) (s : State) : Host.Outcome State Fault Refusal :=
  .next (match s.boundTo slot with
    | none => s
    | some p =>
      if SMap.get false s.notified slot then
        let s := { s with notified := SMap.set false s.notified slot false }
        let tail := s.mbox32 slot 0
        let s := (s.touchMbox slot 0).agentSync (s.regionBase slot) 5 agentCore
        let d := (tail - s.mbox32 slot 0x100).toNat
        let s := s.touchMbox slot 0x100
        if d = 0 then s
        else if d ≤ 256 then s.readRing p slot d
        else s.rejectJob p cQUEUE 0 0xFF 0 0 0 0
      else s)

/-- The free-running counts of a function slot's region go back to 0 (R66). -/
def State.clearCounts (s : State) (slot : Nat) : State := [0, 0x100, 0x80, 0x104, 0x108].foldl (fun (s : State) o => s.setMbox32 slot o 0) s

/-- VF_FLR (R66). -/
def execVfFlr (slot : Nat) (s : State) : Host.Outcome State Fault Refusal :=
  .next (match s.boundTo slot with
    | none => s
    | some p =>
      (((List.range 64).foldl (fun (s : State) j => s.cancelJob p j) s).spreadCancel).clearCounts slot)

/-! ## Memory traffic from outside (R275, R361, R362) -/

/-- Slots of bound VFs whose notify line is this one. -/
def State.notifySlots (s : State) (line : Nat) : List Nat :=
  (List.range 32).filter (fun k => (s.boundTo k).isSome && s.behind (s.regionBase k) && s.regionBase k / 128 == line)

def State.noteNotify (s : State) : List Nat → State
  | [] => s
  | k :: ks => { s with notified := SMap.set false s.notified k true }.noteNotify ks

/-- A host's write, line by line; a line that is written tells the monitor on it (R68, R271). -/
def State.hostStore (s : State) (pa : Nat) (bs : List Byte) : State :=
  (linesOf pa bs.length).foldl (fun (s : State) l =>
    let p := partIn l pa bs.length
    match s.storeByLine p.1 ((bs.drop (p.1 - pa)).take (p.2 - p.1)) with
    | (s, none) => s.noteNotify (s.notifySlots l)
    | (s, some _) => s) s

/-- HOST_MEMORY_WRITE (R362). A write that would touch a SEALED object or a tagged header word is discarded and logged (R362). -/
def execHostMemoryWrite (pa : Nat) (bytes : List (BitVec 8)) (s : State) : Host.Outcome State Fault Refusal :=
  .next (
    let n := bytes.length
    if n = 0 ∨ !s.behind pa ∨ !s.behind (pa + n - 1) then s
    else if s.sealedAt pa n || s.headerAt pa n then s.ras pa 10 2 (s.partOfPa pa)
    else s.hostStore pa bytes)

/-- HOST_MEMORY_READ (R361). The home recalls the owner's copy of a private line, which holds nothing that memory does not (R360). -/
def execHostMemoryRead (pa : Nat) (n : Nat) (s : State) : Host.Outcome State Fault Refusal :=
  .next (
    if n = 0 ∨ !s.behind pa ∨ !s.behind (pa + n - 1) then s
    else match s.readFault pa n with
      | (s, some _) => s.signal .hostPoison
      | (s, none) => s.signal (.hostData (s.bytes pa n)))

/-- 8-byte words of a byte range, from the first to the last. -/
def wordAddrs (pa n : Nat) : List Nat := (List.range ((pa + n - 1) / 8 - pa / 8 + 1)).map (fun i => 8 * (pa / 8 + i))

/-- The tags a peer's store carries are set on the words it covers in whole (R34, R36). -/
def State.setPeerTags (s : State) (pa n : Nat) (tags : List Bool) : State :=
  ((wordAddrs pa n).zip tags).foldl (fun (s : State) x => if x.2 && decide (pa ≤ x.1 ∧ x.1 + 8 ≤ pa + n) then s.setTag x.1 true else s) s

/-- A peer's access once the object checks have passed, and whether it is performed. Yareno transfers carry the words' tags (R34). -/
def State.peerAccess (s : State) (pa n : Nat) (store : Option (List Byte)) (tags : List Bool) : State × Bool :=
  match store with
  | some b =>
    (match s.storeByLine pa b with
      | (s, none) => (s.setPeerTags pa n tags, true)
      | (s, some c) => (s.signal (.peerFault c), false))
  | none =>
    (match s.readFault pa n with
      | (s, some c) => (s.signal (.peerFault c), false)
      | (s, none) => (s.signal (.peerData (s.bytes pa n) ((wordAddrs pa n).map s.tagAt)), true))

/-- A peer's atomic, made by the home's Crock as one step: its old value is the answer (R386, R389, R413). -/
def State.peerAtomic (s : State) (pa n : Nat) (x : PeerAtom) : State × Bool :=
  if s.crockFails pa then ((s.clearCrock pa).signal (.peerFault cPOISON), false)
  else match s.writeFault pa n with
    | (s, some c) => (s.signal (.peerFault c), false)
    | (s, none) =>
      match s.readFault pa n with
      | (s, some c) => (s.signal (.peerFault c), false)
      | (s, none) =>
        let old := s.bytes pa n
        let s := match atomValue x.op n x.operand x.new (extended n true old) with
          | some v => s.store (cellsAt pa (toBytes n v.toNat))
          | none => s
        (s.signal (.peerData old []), true)

/-- What a peer asks for, once it may be done. -/
def State.peerServe (s : State) (pa n : Nat) (req : PeerRequest) : State × Bool :=
  match req.atom with
  | some x => s.peerAtomic pa n x
  | none => s.peerAccess pa n req.store req.tags

/-- Bytes of a peer's request. -/
def peerSize (req : PeerRequest) (n : Nat) : Nat :=
  match req.atom, req.store with
  | some _, _ => if n = 4 then 4 else 8
  | none, some b => b.length
  | none, none => n

/-- A request of a peer that writes. -/
def peerWrites (req : PeerRequest) : Bool := req.store.isSome || req.atom.isSome

/-- PEER_MEMORY_REQUEST (R361). A synchronising access that is performed is recorded, and a mismatch is reported when its partition traps it; the
count is kept at the requester (R383-R385). -/
def execPeerMemoryRequest (pa : Nat) (n : Nat) (req : PeerRequest) (s : State) : Host.Outcome State Fault Refusal :=
  .next (
    let n := peerSize req n
    if n = 0 ∨ !s.linked ∨ !isHbm pa ∨ !s.behind pa ∨ !s.behind (pa + n - 1) then s
    else match s.objectFault none pa n (peerWrites req), req.sync with
      | some c, _ => s.signal (.peerFault c)
      | none, none => (s.peerServe pa n req).1
      | none, some y =>
        if y.mode == 2 && s.mismatches (y.device, y.core) y.scope pa then s.signal (.peerFault cSCOPE_MISMATCH)
        else match s.peerServe pa n req with
          | (s, true) => s.recordScope (pa / 128) y.scope (y.device, y.core)
          | (s, false) => s)

/-! ## The patrol scrubber (R275) -/

/-- The scrubber reads a line: an uncorrectable metadata block is poisoned (R270), and what else it finds waits with the line's version. -/
def State.scrubRead (s : State) (line : Nat) : State :=
  let pa := 128 * line
  if !s.mgmt.scrubEnable || !isHbm pa || !s.behind pa || !s.liveAt pa
      || decide (4 ≤ (s.scrubs.filter (fun x => stackOf (128 * x.line) == stackOf pa)).length) then s
  else if (s.blockLines line).any (fun l => SMap.get false s.badMetaBlocks l) then (s.lineFault line [] false).1
  else if (s.lineInfo line).poison then s
  else
    let ks := (s.readSectors line [0, 1, 2, 3]).map (4 * line + ·)
    let bad := ks.any (fun k => SMap.get false s.badSectors k)
    let soft := ks.any (fun k => SMap.get false s.softSectors k)
    if bad || soft then { s with scrubs := s.scrubs ++ [{ line := line, bad := bad, soft := soft }] } else s

/-- The scrubber acts on what it has read, and writes only if the version is unchanged. -/
def State.scrubAct (s : State) (x : Scrub) : State :=
  let pa := 128 * x.line
  let s := { s with scrubs := s.scrubs.filter (fun y => y.line ≠ x.line) }
  if x.bad then
    let s := if x.changed then s else
      let s := s.setLine x.line { (s.lineInfo x.line) with poison := true }
      { s.setMgmt { s.mgmt with ueFound := satInc s.mgmt.ueFound } with
        badSectors := SMap.clear (4 * x.line) (4 * x.line + 4) s.badSectors }
    s.ras pa 7 1 (s.partOfPa pa)
  else if x.changed then s
  else { s.setMgmt { s.mgmt with ceFound := satInc s.mgmt.ceFound } with
         softSectors := SMap.clear (4 * x.line) (4 * x.line + 4) s.softSectors }

/-- PATROL_SCRUB (R275). The first step of a line reads it, the second acts (log 54). -/
def execPatrolScrub (line : Nat) (s : State) : Host.Outcome State Fault Refusal :=
  .next (match s.scrubs.find? (fun x => x.line == line) with
    | some x => s.scrubAct x
    | none => s.scrubRead line)

/-! ## A PF's and a VF's BAR0 and MSI-X table (R51, R66, R67, R411) -/

/-- The driver reads a register of the block through a PF that is present (R51). -/
def State.pfRead (s : State) (portB : Bool) (off : Nat) : State :=
  if s.hasMaster (if portB then .pfB else .pfA) then (s.mgmtRead off).1.signal (.readData (s.mgmtRead off).2) else s

/-- An input from the surroundings. What the host reads of an unbound VF is 0, and its writes there are ignored (R66). -/
def State.input (s : State) (a : Agenda) : State :=
  match a with
  | .vfBarRead slot off =>
    s.signal (.readData (if (s.boundTo slot).isSome && off == 0 then SMap.get 0 s.vfMbox slot else 0))
  | .vfBarWrite slot off w =>
    (match s.boundTo slot with
      | some p => if off = 8 then s.pageAnswer p w else s
      | none => s)
  | .msixRead slot vec =>
    s.signal (.hostData (toBytes 16 (if (s.boundTo slot).isSome && vec < 4 then SMap.get 0 s.msix (4 * slot + vec) else 0).toNat))
  | .msixWrite slot vec w =>
    if (s.boundTo slot).isSome && vec < 4 then { s with msix := SMap.set 0 s.msix (4 * slot + vec) w } else s
  | .pfRead portB off => s.pfRead portB off
  | a => s.disturb a

/-! ## MCTP and SPDM (R425, R427) -/

/-- The device answers a request with bytes the spec does not give (log 7). -/
def State.answer (s : State) (request : String) (known : List Byte) : State :=
  { s.signal (.reply request (known ++ Config.replyBytes s.freeNo)) with freeNo := s.freeNo + 1 }

/-- MCTP_READ (R425). -/
def execMctpRead (off : Nat) (s : State) : Host.Outcome State Fault Refusal :=
  .next ((s.mgmtRead off).1.signal (.mctpData (s.mgmtRead off).2))

/-- MCTP_WRITE (R425). A write that the block does not take is answered with ERROR (R52). -/
def execMctpWrite (off : Nat) (w : BitVec 64) (s : State) : Host.Outcome State Fault Refusal :=
  .next (let t := s.mgmtWrite .bmc off w
    if s.booted && !s.refuses .bmc off then t.signal (.reply "WRITE" []) else t)

/-- GET_ENDPOINT_ID (R425). -/
def execGetEndpointId (s : State) : Host.Outcome State Fault Refusal :=
  .next (s.answer "GET_ENDPOINT_ID" [s.mgmt.eid])

/-- SET_ENDPOINT_ID (R425). -/
def execSetEndpointId (eid : BitVec 8) (s : State) : Host.Outcome State Fault Refusal :=
  .next ((s.setMgmt { s.mgmt with eid := eid }).answer "SET_ENDPOINT_ID" [])

/-- GET_MCTP_VERSION_SUPPORT (R425). -/
def execGetMctpVersionSupport (s : State) : Host.Outcome State Fault Refusal :=
  .next (s.answer "GET_MCTP_VERSION_SUPPORT" [])

/-- GET_MESSAGE_TYPE_SUPPORT (R425). The types are 0x05 and 0x7F. -/
def execGetMessageTypeSupport (s : State) : Host.Outcome State Fault Refusal :=
  .next (s.answer "GET_MESSAGE_TYPE_SUPPORT" [0x05, 0x7F])

/-- GET_VENDOR_DEFINED_MESSAGE_SUPPORT (R425). -/
def execGetVendorDefinedMessageSupport (s : State) : Host.Outcome State Fault Refusal :=
  .next (s.answer "GET_VENDOR_DEFINED_MESSAGE_SUPPORT" [])

/-- The device answers an SPDM request; the rest of the message is open (log 7). -/
def State.spdmAnswer (s : State) (a : SpdmAnswer) : State :=
  { s.signal (.spdm a (Config.replyBytes s.freeNo)) with freeNo := s.freeNo + 1 }

/-- GET_VERSION (R427). -/
def execGetVersion (s : State) : Host.Outcome State Fault Refusal :=
  .next (s.spdmAnswer (.version 1 3))

/-- GET_CAPABILITIES (R427). No KEY_EXCHANGE and no sessions are offered. -/
def execGetCapabilities (s : State) : Host.Outcome State Fault Refusal :=
  .next (s.spdmAnswer (.capabilities false false))

/-- What the device signs with its identity key (R427). -/
def State.signed (s : State) (m : List Byte) : List Byte := Config.signature s.freeNo s.fuses.identityKey m

/-- NEGOTIATE_ALGORITHMS (R427). The extended algorithm 1 is Falcon-1024, algorithm 2 is SHAKE256; any other is unsupported. -/
def execNegotiateAlgorithms (asym : BitVec 16) (hash : BitVec 16) (s : State) : Host.Outcome State Fault Refusal :=
  .next (if asym = 1 ∧ hash = 2 then (s.setMgmt { s.mgmt with spdmNegotiated := true }).spdmAnswer
      (.algorithms (.iana Config.enterprise) 1 2)
    else s.signal (.spdmError .unsupportedRequest))

/-- GET_DIGESTS (R427): of the chain in slot 0. -/
def execGetDigests (s : State) : Host.Outcome State Fault Refusal :=
  .next (s.spdmAnswer (.digest 0 (shakeDigest s.fuses.certChain)))

/-- GET_CERTIFICATE (R427). The chain is in slot 0; another slot is an invalid request (log 44). -/
def execGetCertificate (slot : Nat) (s : State) : Host.Outcome State Fault Refusal :=
  .next (if slot = 0 then s.spdmAnswer (.certificate 0 s.fuses.certChain) else s.signal (.spdmError .invalidRequest))

/-- CHALLENGE (R427). The identity key signs the answer, which holds the nonce and the digest of the chain; the bytes of the signature are open
(log 7). -/
def execChallenge (slot : Nat) (nonce : BitVec 256) (s : State) : Host.Outcome State Fault Refusal :=
  .next (if slot = 0 then
      s.spdmAnswer (.challenge 0 nonce (s.signed (toBytes 32 nonce.toNat ++ toBytes 64 (shakeDigest s.fuses.certChain).toNat)))
    else s.signal (.spdmError .invalidRequest))

/-- The registers that measurement block 4 or 5 digests (R426). -/
def State.measured (s : State) (block : Nat) : List (BitVec 64) :=
  if block = 4 then (List.range 27).map (fun i => s.capReg (0x400 + i))
  else s.ownStatus :: (List.range 16).flatMap (fun p => (List.range 20).map (fun k => (s.shownPart p).descRead (8 * k)))

/-- The digest in a measurement block (R426); in blocks 4 and 5 the bytes that are digested are open, their registers are not (log 7). -/
def State.measurement (s : State) (block : Nat) : Option (BitVec 512) :=
  if 1 ≤ block ∧ block ≤ 3 then s.mgmt.measurements[block - 1]?
  else if block = 4 ∨ block = 5 then some (shakeDigest (Config.measuredBytes block (s.measured block)))
  else none

/-- The bytes of a measurement that its signature covers. -/
def digestBytes (d : Option (BitVec 512)) : List Byte := match d with | some x => toBytes 64 x.toNat | none => []

/-- GET_MEASUREMENTS (R427), signed with the identity key. -/
def execGetMeasurements (block : Nat) (s : State) : Host.Outcome State Fault Refusal :=
  .next (s.spdmAnswer (.measurement block (s.measurement block)
    (s.signed (BitVec.ofNat 8 block :: digestBytes (s.measurement block)))))

/-- The SPDM requests. -/
def isSpdm (i : Instr) : Bool :=
  match i with
  | .getVersion => true
  | .getCapabilities => true
  | .negotiateAlgorithms _ _ => true
  | .getDigests => true
  | .getCertificate _ => true
  | .challenge _ _ => true
  | .getMeasurements _ => true
  | _ => false

/-- What a request has signalled since a state goes over the DOE mailbox of a PF. -/
def State.overDoe (t s : State) (portB : Bool) : State :=
  { t with signals := s.signals ++ (t.signals.drop s.signals.length).map (.overDoe portB) }

/-! ## Boot (R264, R426) -/

/-- Why an image fails, in the order of R426; 0 when it is verified. -/
def State.verifyImage (s : State) (i : BootImage) : BitVec 8 :=
  if shakeDigest i.key ≠ SMap.get 0 s.fuses.keyDigests i.keyIndex.toNat then 1
  else if s.fuses.revoked.getLsbD i.keyIndex.toNat then 2
  else if !falcon1024 i.key (toBytes 64 (shakeDigest i.code).toNat) i.signature then 1
  else if i.version < s.fuses.minVersion then 3
  else 0

/-- The chain of three images: images verified, result, measurements, version of the core firmware. -/
def State.verifyChain (s : State) : Nat → List BootImage → List (BitVec 512) → Nat × BitVec 8 × List (BitVec 512) × BitVec 16
  | k, [], ms => (k, 1, ms, 0)
  | k, i :: is, ms =>
    if s.verifyImage i ≠ 0 then (k, s.verifyImage i, ms, 0)
    else if k = 2 then (3, 0, ms ++ [shakeDigest i.code], i.version)
    else s.verifyChain (k + 1) is (ms ++ [shakeDigest i.code])

/-- The ranges given to the CXL ports, in port order (R264). -/
def State.enumerate (s : State) : Nat → Nat → Nat → SMap (BitVec 64) → SMap (BitVec 64)
  | 0, _, _, m => m
  | n + 1, port, base, m =>
    let gib := Nat.min (SMap.get 0 s.fuses.attached port * 63 / 64 / 2 ^ 30) (16384 - base)
    if s.fuses.cxlPorts.getLsbD port ∧ gib ≠ 0 then
      s.enumerate n (port + 1) (base + gib)
        (SMap.set 0 m port (BitVec.ofNat 64 (base * 2 ^ 32 + gib * 2 ^ 16 + 1)))
    else s.enumerate n (port + 1) base m

/-- POWER_ON (R426). What is outside the package keeps its contents, but the tags of the CXL tier are zeroed (R265); every other field takes
its reset value. -/
def execPowerOn (images : List BootImage) (s : State) : Host.Outcome State Fault Refusal :=
  .next (
    let (stage, result, ms, svn) := s.verifyChain 0 images []
    let r : State := { fuses := s.fuses, mem := s.mem.filter (fun c => decide (tierBase ≤ c.1)), peerEntries := s.peerEntries,
                       tags := s.tags.filter (fun t => decide (peerBase ≤ 8 * t.1)),
                       lineMeta := s.lineMeta.filter (fun l => decide (tierBase ≤ 128 * l.1)),
                       badHost := s.badHost, signals := s.signals, cycles := s.cycles, fabric := s.fabric, stepNo := s.stepNo, freeNo := s.freeNo,
                       walkNo := s.walkNo, unitNo := s.unitNo, agenda := s.agenda }
    r.setMgmt { bootStage := BitVec.ofNat 8 stage, bootResult := result, bootSvn := svn, measurements := ms, temps := s.mgmt.temps,
                cxlRange := if stage = 3 then s.enumerate 10 0 0 [] else [] })

end Sys2Proof.Machine
end

