-- ==== Sys2Proof/Machine/Integer.lean ====
section
/-! DEFINITION. Integer instructions (R136-R138): each reads its sources, writes s[d] and changes nothing else. -/

namespace Sys2Proof.Machine

/-- Number of leading zero bits. -/
def clz64 (x : BitVec 64) : BitVec 64 := if x = 0 then 64 else BitVec.ofNat 64 (63 - x.toNat.log2)
/-- Number of trailing zero bits. -/
def ctz64 (x : BitVec 64) : BitVec 64 := BitVec.ofNat 64 ((firstBelow (fun k => bit x k) 64).getD 64)
/-- Number of one bits. -/
def popc64 (x : BitVec 64) : BitVec 64 := BitVec.ofNat 64 ((List.range 64).filter (fun k => bit x k)).length
/-- Low n bits set. -/
def lowMask (n : Nat) : BitVec 64 := BitVec.ofNat 64 (2 ^ n - 1)
def boolWord (c : Bool) : BitVec 64 := if c then 1 else 0

/-- MULH (R136): bits [127:64] of the product; mode 0 signed, 1 unsigned, 2 signed by unsigned. -/
def mulHigh (m : BitVec 2) (a b : BitVec 64) : BitVec 64 :=
  match m.toNat with
  | 0 => bits64 (a.toInt * b.toInt / (2 ^ 64 : Int))
  | 1 => BitVec.ofNat 64 (a.toNat * b.toNat / 2 ^ 64)
  | _ => bits64 (a.toInt * (b.toNat : Int) / (2 ^ 64 : Int))
/-- DIV (R136). -/
def quotient (u : BitVec 1) (a b : BitVec 64) : BitVec 64 :=
  if b = 0 then BitVec.allOnes 64 else if u = 1 then a / b else a.sdiv b
/-- REM (R136). -/
def remainder (u : BitVec 1) (a b : BitVec 64) : BitVec 64 :=
  if b = 0 then a else if u = 1 then a % b else a.srem b
/-- CMP's conditions (R98). -/
def compare (c : BitVec 3) (a b : BitVec 64) : Bool :=
  match c.toNat with
  | 0 => a == b | 1 => a != b | 2 => a.slt b | 3 => !a.slt b | 4 => a.ult b | _ => !a.ult b
/-- BFX and BFI (R136): a field of width w + 1 at a position. -/
def extractField (a : BitVec 64) (pos w : Nat) : BitVec 64 := (a >>> pos) &&& lowMask (w + 1)
def insertField (old a : BitVec 64) (pos w : Nat) : BitVec 64 :=
  (old &&& ~~~(lowMask (w + 1) <<< pos)) ||| ((a &&& lowMask (w + 1)) <<< pos)

/-- The shape of every integer instruction: named registers, destination, value. -/
def State.compute (s : State) (i : Instr) (rs : List (BitVec 6)) (d : BitVec 6) (v : BitVec 64) :
    Host.Outcome State Fault Refusal :=
  s.finish i (s.withRegs (d :: rs) (s.result d v))

/-- sh = s[b][5:0]. -/
def State.amount (s : State) (b : BitVec 6) : Nat := (s.reg b).toNat % 64

/-- ADD (R136). -/
def execAdd (d : BitVec 6) (a : BitVec 6) (b : BitVec 6) (s : State) : Host.Outcome State Fault Refusal :=
  s.compute (.add d a b) [a, b] d (s.reg a + s.reg b)

/-- SUB (R136). -/
def execSub (d : BitVec 6) (a : BitVec 6) (b : BitVec 6) (s : State) : Host.Outcome State Fault Refusal :=
  s.compute (.sub d a b) [a, b] d (s.reg a - s.reg b)

/-- MUL (R136). -/
def execMul (d : BitVec 6) (a : BitVec 6) (b : BitVec 6) (s : State) : Host.Outcome State Fault Refusal :=
  s.compute (.mul d a b) [a, b] d (s.reg a * s.reg b)

/-- MULH (R136). -/
def execMulh (d : BitVec 6) (a : BitVec 6) (b : BitVec 6) (m : BitVec 2) (s : State) : Host.Outcome State Fault Refusal :=
  s.compute (.mulh d a b m) [a, b] d (mulHigh m (s.reg a) (s.reg b))

/-- DIV (R136). -/
def execDiv (d : BitVec 6) (a : BitVec 6) (b : BitVec 6) (u : BitVec 1) (s : State) : Host.Outcome State Fault Refusal :=
  s.compute (.div d a b u) [a, b] d (quotient u (s.reg a) (s.reg b))

/-- REM (R136). -/
def execRem (d : BitVec 6) (a : BitVec 6) (b : BitVec 6) (u : BitVec 1) (s : State) : Host.Outcome State Fault Refusal :=
  s.compute (.rem d a b u) [a, b] d (remainder u (s.reg a) (s.reg b))

/-- AND (R136). -/
def execAnd (d : BitVec 6) (a : BitVec 6) (b : BitVec 6) (s : State) : Host.Outcome State Fault Refusal :=
  s.compute (.and d a b) [a, b] d (s.reg a &&& s.reg b)

/-- OR (R136). -/
def execOr (d : BitVec 6) (a : BitVec 6) (b : BitVec 6) (s : State) : Host.Outcome State Fault Refusal :=
  s.compute (.or d a b) [a, b] d (s.reg a ||| s.reg b)

/-- XOR (R136). -/
def execXor (d : BitVec 6) (a : BitVec 6) (b : BitVec 6) (s : State) : Host.Outcome State Fault Refusal :=
  s.compute (.xor d a b) [a, b] d (s.reg a ^^^ s.reg b)

/-- ANDN (R136). -/
def execAndn (d : BitVec 6) (a : BitVec 6) (b : BitVec 6) (s : State) : Host.Outcome State Fault Refusal :=
  s.compute (.andn d a b) [a, b] d (s.reg a &&& ~~~(s.reg b))

/-- SHL (R136). -/
def execShl (d : BitVec 6) (a : BitVec 6) (b : BitVec 6) (s : State) : Host.Outcome State Fault Refusal :=
  s.compute (.shl d a b) [a, b] d (s.reg a <<< s.amount b)

/-- SHR (R136). -/
def execShr (d : BitVec 6) (a : BitVec 6) (b : BitVec 6) (s : State) : Host.Outcome State Fault Refusal :=
  s.compute (.shr d a b) [a, b] d (s.reg a >>> s.amount b)

/-- SAR (R136). -/
def execSar (d : BitVec 6) (a : BitVec 6) (b : BitVec 6) (s : State) : Host.Outcome State Fault Refusal :=
  s.compute (.sar d a b) [a, b] d ((s.reg a).sshiftRight (s.amount b))

/-- ROR (R136). -/
def execRor (d : BitVec 6) (a : BitVec 6) (b : BitVec 6) (s : State) : Host.Outcome State Fault Refusal :=
  s.compute (.ror d a b) [a, b] d ((s.reg a).rotateRight (s.amount b))

/-- MIN (R136). -/
def execMin (d : BitVec 6) (a : BitVec 6) (b : BitVec 6) (u : BitVec 1) (s : State) : Host.Outcome State Fault Refusal :=
  s.compute (.min d a b u) [a, b] d (if (if u = 1 then (s.reg a).ult (s.reg b) else (s.reg a).slt (s.reg b)) then s.reg a else s.reg b)

/-- MAX (R136). -/
def execMax (d : BitVec 6) (a : BitVec 6) (b : BitVec 6) (u : BitVec 1) (s : State) : Host.Outcome State Fault Refusal :=
  s.compute (.max d a b u) [a, b] d (if (if u = 1 then (s.reg a).ult (s.reg b) else (s.reg a).slt (s.reg b)) then s.reg b else s.reg a)

/-- CMP (R136). -/
def execCmp (d : BitVec 6) (a : BitVec 6) (b : BitVec 6) (c : BitVec 3) (s : State) : Host.Outcome State Fault Refusal :=
  s.compute (.cmp d a b c) [a, b] d (boolWord (compare c (s.reg a) (s.reg b)))

/-- SEL (R136). -/
def execSel (d : BitVec 6) (a : BitVec 6) (b : BitVec 6) (c : BitVec 6) (s : State) : Host.Outcome State Fault Refusal :=
  s.compute (.sel d a b c) [a, b, c] d (if s.reg c ≠ 0 then s.reg a else s.reg b)

/-- CLZ (R136). -/
def execClz (d : BitVec 6) (a : BitVec 6) (s : State) : Host.Outcome State Fault Refusal :=
  s.compute (.clz d a) [a] d (clz64 (s.reg a))

/-- CTZ (R136). -/
def execCtz (d : BitVec 6) (a : BitVec 6) (s : State) : Host.Outcome State Fault Refusal :=
  s.compute (.ctz d a) [a] d (ctz64 (s.reg a))

/-- POPC (R136). -/
def execPopc (d : BitVec 6) (a : BitVec 6) (s : State) : Host.Outcome State Fault Refusal :=
  s.compute (.popc d a) [a] d (popc64 (s.reg a))

/-- SHADD (R136). -/
def execShadd (d : BitVec 6) (a : BitVec 6) (b : BitVec 6) (k : BitVec 2) (s : State) : Host.Outcome State Fault Refusal :=
  s.compute (.shadd d a b k) [a, b] d (s.reg a + (s.reg b <<< k.toNat))

/-- BFX (R136). -/
def execBfx (d : BitVec 6) (a : BitVec 6) (b : BitVec 6) (w : BitVec 6) (s : State) : Host.Outcome State Fault Refusal :=
  s.compute (.bfx d a b w) [a, b] d (extractField (s.reg a) (s.amount b) w.toNat)

/-- BFI (R136). -/
def execBfi (d : BitVec 6) (a : BitVec 6) (b : BitVec 6) (w : BitVec 6) (s : State) : Host.Outcome State Fault Refusal :=
  s.compute (.bfi d a b w) [a, b] d (insertField (s.reg d) (s.reg a) (s.amount b) w.toNat)

/-- ADDI (R137). -/
def execAddi (d : BitVec 6) (a : BitVec 6) (i : BitVec 12) (s : State) : Host.Outcome State Fault Refusal :=
  s.compute (.addi d a i) [a] d (s.reg a + sx i)

/-- ANDI (R137). -/
def execAndi (d : BitVec 6) (a : BitVec 6) (i : BitVec 12) (s : State) : Host.Outcome State Fault Refusal :=
  s.compute (.andi d a i) [a] d (s.reg a &&& sx i)

/-- ORI (R137). -/
def execOri (d : BitVec 6) (a : BitVec 6) (i : BitVec 12) (s : State) : Host.Outcome State Fault Refusal :=
  s.compute (.ori d a i) [a] d (s.reg a ||| zx i)

/-- XORI (R137). -/
def execXori (d : BitVec 6) (a : BitVec 6) (i : BitVec 12) (s : State) : Host.Outcome State Fault Refusal :=
  s.compute (.xori d a i) [a] d (s.reg a ^^^ zx i)

/-- SHLI (R137). -/
def execShli (d : BitVec 6) (a : BitVec 6) (i : BitVec 6) (s : State) : Host.Outcome State Fault Refusal :=
  s.compute (.shli d a i) [a] d (s.reg a <<< i.toNat)

/-- SHRI (R137). -/
def execShri (d : BitVec 6) (a : BitVec 6) (i : BitVec 6) (s : State) : Host.Outcome State Fault Refusal :=
  s.compute (.shri d a i) [a] d (s.reg a >>> i.toNat)

/-- SARI (R137). -/
def execSari (d : BitVec 6) (a : BitVec 6) (i : BitVec 6) (s : State) : Host.Outcome State Fault Refusal :=
  s.compute (.sari d a i) [a] d ((s.reg a).sshiftRight i.toNat)

/-- MULI (R137). -/
def execMuli (d : BitVec 6) (a : BitVec 6) (i : BitVec 12) (s : State) : Host.Outcome State Fault Refusal :=
  s.compute (.muli d a i) [a] d (s.reg a * sx i)

/-- CMPEQI (R137). -/
def execCmpeqi (d : BitVec 6) (a : BitVec 6) (i : BitVec 12) (s : State) : Host.Outcome State Fault Refusal :=
  s.compute (.cmpeqi d a i) [a] d (boolWord (s.reg a == sx i))

/-- CMPLTI (R137). -/
def execCmplti (d : BitVec 6) (a : BitVec 6) (i : BitVec 12) (s : State) : Host.Outcome State Fault Refusal :=
  s.compute (.cmplti d a i) [a] d (boolWord ((s.reg a).slt (sx i)))

/-- CMPLTUI (R137). -/
def execCmpltui (d : BitVec 6) (a : BitVec 6) (i : BitVec 12) (s : State) : Host.Outcome State Fault Refusal :=
  s.compute (.cmpltui d a i) [a] d (boolWord ((s.reg a).ult (sx i)))

/-- LI (R138). -/
def execLi (d : BitVec 6) (i : BitVec 18) (s : State) : Host.Outcome State Fault Refusal :=
  s.compute (.li d i) [] d (sx i)

/-- LIS (R138). -/
def execLis (d : BitVec 6) (i : BitVec 18) (s : State) : Host.Outcome State Fault Refusal :=
  s.compute (.lis d i) [] d ((s.reg d <<< 18) ||| zx i)

/-- ADDPC (R138). -/
def execAddpc (d : BitVec 6) (i : BitVec 18) (s : State) : Host.Outcome State Fault Refusal :=
  s.compute (.addpc d i) [] d (s.cur.pc + sx i)

end Sys2Proof.Machine
end

