-- ==== Sys2Proof/Machine/Dispatch.lean ====
section
/-! DEFINITION. The meaning of every step: one arm per constructor. -/

namespace Sys2Proof.Machine

def exec (i : Instr) (s : State) : Host.Outcome State Fault Refusal :=
  match i with
  | .add d a b => Sys2Proof.Machine.execAdd d a b s
  | .sub d a b => Sys2Proof.Machine.execSub d a b s
  | .mul d a b => Sys2Proof.Machine.execMul d a b s
  | .mulh d a b m => Sys2Proof.Machine.execMulh d a b m s
  | .div d a b u => Sys2Proof.Machine.execDiv d a b u s
  | .rem d a b u => Sys2Proof.Machine.execRem d a b u s
  | .and d a b => Sys2Proof.Machine.execAnd d a b s
  | .or d a b => Sys2Proof.Machine.execOr d a b s
  | .xor d a b => Sys2Proof.Machine.execXor d a b s
  | .andn d a b => Sys2Proof.Machine.execAndn d a b s
  | .shl d a b => Sys2Proof.Machine.execShl d a b s
  | .shr d a b => Sys2Proof.Machine.execShr d a b s
  | .sar d a b => Sys2Proof.Machine.execSar d a b s
  | .ror d a b => Sys2Proof.Machine.execRor d a b s
  | .min d a b u => Sys2Proof.Machine.execMin d a b u s
  | .max d a b u => Sys2Proof.Machine.execMax d a b u s
  | .cmp d a b c => Sys2Proof.Machine.execCmp d a b c s
  | .sel d a b c => Sys2Proof.Machine.execSel d a b c s
  | .clz d a => Sys2Proof.Machine.execClz d a s
  | .ctz d a => Sys2Proof.Machine.execCtz d a s
  | .popc d a => Sys2Proof.Machine.execPopc d a s
  | .shadd d a b k => Sys2Proof.Machine.execShadd d a b k s
  | .bfx d a b w => Sys2Proof.Machine.execBfx d a b w s
  | .bfi d a b w => Sys2Proof.Machine.execBfi d a b w s
  | .addi d a imm => Sys2Proof.Machine.execAddi d a imm s
  | .andi d a imm => Sys2Proof.Machine.execAndi d a imm s
  | .ori d a imm => Sys2Proof.Machine.execOri d a imm s
  | .xori d a imm => Sys2Proof.Machine.execXori d a imm s
  | .shli d a imm => Sys2Proof.Machine.execShli d a imm s
  | .shri d a imm => Sys2Proof.Machine.execShri d a imm s
  | .sari d a imm => Sys2Proof.Machine.execSari d a imm s
  | .muli d a imm => Sys2Proof.Machine.execMuli d a imm s
  | .cmpeqi d a imm => Sys2Proof.Machine.execCmpeqi d a imm s
  | .cmplti d a imm => Sys2Proof.Machine.execCmplti d a imm s
  | .cmpltui d a imm => Sys2Proof.Machine.execCmpltui d a imm s
  | .li d imm => Sys2Proof.Machine.execLi d imm s
  | .lis d imm => Sys2Proof.Machine.execLis d imm s
  | .addpc d imm => Sys2Proof.Machine.execAddpc d imm s
  | .beq a b o => Sys2Proof.Machine.execBeq a b o s
  | .bne a b o => Sys2Proof.Machine.execBne a b o s
  | .blt a b o => Sys2Proof.Machine.execBlt a b o s
  | .bge a b o => Sys2Proof.Machine.execBge a b o s
  | .bltu a b o => Sys2Proof.Machine.execBltu a b o s
  | .bgeu a b o => Sys2Proof.Machine.execBgeu a b o s
  | .jmp o => Sys2Proof.Machine.execJmp o s
  | .jal o => Sys2Proof.Machine.execJal o s
  | .jr d a imm => Sys2Proof.Machine.execJr d a imm s
  | .loop a l e => Sys2Proof.Machine.execLoop a l e s
  | .loopm h l f e => Sys2Proof.Machine.execLoopm h l f e s
  | .ldb d h o => Sys2Proof.Machine.execLdb d h o s
  | .ldbu d h o => Sys2Proof.Machine.execLdbu d h o s
  | .ldh d h o => Sys2Proof.Machine.execLdh d h o s
  | .ldhu d h o => Sys2Proof.Machine.execLdhu d h o s
  | .ldw d h o => Sys2Proof.Machine.execLdw d h o s
  | .ldwu d h o => Sys2Proof.Machine.execLdwu d h o s
  | .ldd d h o => Sys2Proof.Machine.execLdd d h o s
  | .stb r h o => Sys2Proof.Machine.execStb r h o s
  | .sth r h o => Sys2Proof.Machine.execSth r h o s
  | .stw r h o => Sys2Proof.Machine.execStw r h o s
  | .std r h o => Sys2Proof.Machine.execStd r h o s
  | .ldx d h x g z => Sys2Proof.Machine.execLdx d h x g z s
  | .stx r h x z => Sys2Proof.Machine.execStx r h x z s
  | .ldref d h o => Sys2Proof.Machine.execLdref d h o s
  | .stref r h o => Sys2Proof.Machine.execStref r h o s
  | .ldacq d h x g c z => Sys2Proof.Machine.execLdacq d h x g c z s
  | .strel r h x c z => Sys2Proof.Machine.execStrel r h x c z s
  | .xlate h a w => Sys2Proof.Machine.execXlate h a w s
  | .hinfo d h k => Sys2Proof.Machine.execHinfo d h k s
  | .hdrop h => Sys2Proof.Machine.execHdrop h s
  | .stlk d a => Sys2Proof.Machine.execStlk d a s
  | .stins a b => Sys2Proof.Machine.execStins a b s
  | .stinv a => Sys2Proof.Machine.execStinv a s
  | .pkrd d h x m => Sys2Proof.Machine.execPkrd d h x m s
  | .pkwr r h x m => Sys2Proof.Machine.execPkwr r h x m s
  | .pkwt => Sys2Proof.Machine.execPkwt s
  | .objinit r h o => Sys2Proof.Machine.execObjinit r h o s
  | .pub r h x c => Sys2Proof.Machine.execPub r h x c s
  | .aadd d h x z c o => Sys2Proof.Machine.execAadd d h x z c o s
  | .aand d h x z c o => Sys2Proof.Machine.execAand d h x z c o s
  | .aor d h x z c o => Sys2Proof.Machine.execAor d h x z c o s
  | .axor d h x z c o => Sys2Proof.Machine.execAxor d h x z c o s
  | .amin d h x z c o => Sys2Proof.Machine.execAmin d h x z c o s
  | .amax d h x z c o => Sys2Proof.Machine.execAmax d h x z c o s
  | .aswp d h x z c o => Sys2Proof.Machine.execAswp d h x z c o s
  | .acas d h x z c o => Sys2Proof.Machine.execAcas d h x z c o s
  | .fenceFull c => Sys2Proof.Machine.execFenceFull c s
  | .fenceSs c => Sys2Proof.Machine.execFenceSs c s
  | .fenceLl c => Sys2Proof.Machine.execFenceLl c s
  | .fenceEngine c => Sys2Proof.Machine.execFenceEngine c s
  | .monitor h o => Sys2Proof.Machine.execMonitor h o s
  | .mwait d a => Sys2Proof.Machine.execMwait d a s
  | .rwfree r h o => Sys2Proof.Machine.execRwfree r h o s
  | .rpost r h o => Sys2Proof.Machine.execRpost r h o s
  | .rwfill r h o => Sys2Proof.Machine.execRwfill r h o s
  | .rfree r h o => Sys2Proof.Machine.execRfree r h o s
  | .fladd d h x c o => Sys2Proof.Machine.execFladd d h x c o s
  | .flset d h x c o => Sys2Proof.Machine.execFlset d h x c o s
  | .flsetCoreFlag d k => Sys2Proof.Machine.execFlsetCoreFlag d k s
  | .flwait d h x c o => Sys2Proof.Machine.execFlwait d h x c o s
  | .flwaitCoreFlag d k => Sys2Proof.Machine.execFlwaitCoreFlag d k s
  | .drain a k => Sys2Proof.Machine.execDrain a k s
  | .qpush a q => Sys2Proof.Machine.execQpush a q s
  | .qpop d q => Sys2Proof.Machine.execQpop d q s
  | .qpoll d q => Sys2Proof.Machine.execQpoll d q s
  | .gang w => Sys2Proof.Machine.execGang w s
  | .fork a => Sys2Proof.Machine.execFork a s
  | .join g => Sys2Proof.Machine.execJoin g s
  | .spawn h o => Sys2Proof.Machine.execSpawn h o s
  | .jdec h o => Sys2Proof.Machine.execJdec h o s
  | .commit => Sys2Proof.Machine.execCommit s
  | .unitDone => Sys2Proof.Machine.execUnitDone s
  | .yield => Sys2Proof.Machine.execYield s
  | .cancel a l => Sys2Proof.Machine.execCancel a l s
  | .ccnt d a r l => Sys2Proof.Machine.execCcnt d a r l s
  | .tmpl t a c => Sys2Proof.Machine.execTmpl t a c s
  | .wir t a m f k => Sys2Proof.Machine.execWir t a m f k s
  | .wmov w a => Sys2Proof.Machine.execWmov w a s
  | .wget d w => Sys2Proof.Machine.execWget d w s
  | .vlease d n => Sys2Proof.Machine.execVlease d n s
  | .vfree => Sys2Proof.Machine.execVfree s
  | .axbegin o => Sys2Proof.Machine.execAxbegin o s
  | .axend => Sys2Proof.Machine.execAxend s
  | .axinv a => Sys2Proof.Machine.execAxinv a s
  | .axstat d a => Sys2Proof.Machine.execAxstat d a s
  | .pfx n a b r => Sys2Proof.Machine.execPfx n a b r s
  | .seal d o => Sys2Proof.Machine.execSeal d o s
  | .nlease a n => Sys2Proof.Machine.execNlease a n s
  | .nrefInc n => Sys2Proof.Machine.execNrefInc n s
  | .nrefDec n => Sys2Proof.Machine.execNrefDec n s
  | .nxl h a b n => Sys2Proof.Machine.execNxl h a b n s
  | .nfetch d n => Sys2Proof.Machine.execNfetch d n s
  | .nopen d p => Sys2Proof.Machine.execNopen d p s
  | .ndrop n => Sys2Proof.Machine.execNdrop n s
  | .crr d c => Sys2Proof.Machine.execCrr d c s
  | .crw a c => Sys2Proof.Machine.execCrw a c s
  | .trap c => Sys2Proof.Machine.execTrap c s
  | .trapHarvestService => Sys2Proof.Machine.execTrapHarvestService s
  | .trapPageAnswerService => Sys2Proof.Machine.execTrapPageAnswerService s
  | .eret => Sys2Proof.Machine.execEret s
  | .patchWord t m f k v => Sys2Proof.Machine.execPatchWord t m f k v s
  | .tld cl => Sys2Proof.Machine.execTld cl s
  | .vld cl => Sys2Proof.Machine.execVld cl s
  | .vldg cl => Sys2Proof.Machine.execVldg cl s
  | .spcpy cl => Sys2Proof.Machine.execSpcpy cl s
  | .cpy cl => Sys2Proof.Machine.execCpy cl s
  | .cpyg cl => Sys2Proof.Machine.execCpyg cl s
  | .cpyr cl => Sys2Proof.Machine.execCpyr cl s
  | .cpyn cl => Sys2Proof.Machine.execCpyn cl s
  | .tabld cl => Sys2Proof.Machine.execTabld cl s
  | .gload cl => Sys2Proof.Machine.execGload cl s
  | .vaddf cl => Sys2Proof.Machine.execVaddf cl s
  | .vsubf cl => Sys2Proof.Machine.execVsubf cl s
  | .vmulf cl => Sys2Proof.Machine.execVmulf cl s
  | .vfmaf cl => Sys2Proof.Machine.execVfmaf cl s
  | .vminf cl => Sys2Proof.Machine.execVminf cl s
  | .vmaxf cl => Sys2Proof.Machine.execVmaxf cl s
  | .vsgnf cl => Sys2Proof.Machine.execVsgnf cl s
  | .vexp2 cl => Sys2Proof.Machine.execVexp2 cl s
  | .vlog2 cl => Sys2Proof.Machine.execVlog2 cl s
  | .vrcp cl => Sys2Proof.Machine.execVrcp cl s
  | .vrsqrt cl => Sys2Proof.Machine.execVrsqrt cl s
  | .vcvt cl => Sys2Proof.Machine.execVcvt cl s
  | .vcmpf cl => Sys2Proof.Machine.execVcmpf cl s
  | .vsel cl => Sys2Proof.Machine.execVsel cl s
  | .vaddi cl => Sys2Proof.Machine.execVaddi cl s
  | .vsubi cl => Sys2Proof.Machine.execVsubi cl s
  | .vmuli cl => Sys2Proof.Machine.execVmuli cl s
  | .vand cl => Sys2Proof.Machine.execVand cl s
  | .vor cl => Sys2Proof.Machine.execVor cl s
  | .vxor cl => Sys2Proof.Machine.execVxor cl s
  | .vshl cl => Sys2Proof.Machine.execVshl cl s
  | .vshr cl => Sys2Proof.Machine.execVshr cl s
  | .vsar cl => Sys2Proof.Machine.execVsar cl s
  | .vmini cl => Sys2Proof.Machine.execVmini cl s
  | .vmaxi cl => Sys2Proof.Machine.execVmaxi cl s
  | .vcmpi cl => Sys2Proof.Machine.execVcmpi cl s
  | .vbcast cl => Sys2Proof.Machine.execVbcast cl s
  | .viota cl => Sys2Proof.Machine.execViota cl s
  | .vperm cl => Sys2Proof.Machine.execVperm cl s
  | .vredsum cl => Sys2Proof.Machine.execVredsum cl s
  | .vredmax cl => Sys2Proof.Machine.execVredmax cl s
  | .vargmax cl => Sys2Proof.Machine.execVargmax cl s
  | .vtopk cl => Sys2Proof.Machine.execVtopk cl s
  | .vpopc cl => Sys2Proof.Machine.execVpopc cl s
  | .vmovs cl => Sys2Proof.Machine.execVmovs cl s
  | .vscan cl => Sys2Proof.Machine.execVscan cl s
  | .plog cl => Sys2Proof.Machine.execPlog cl s
  | .mma cl => Sys2Proof.Machine.execMma cl s
  | .mmas cl => Sys2Proof.Machine.execMmas cl s
  | .aclr cl => Sys2Proof.Machine.execAclr cl s
  | .ard cl => Sys2Proof.Machine.execArd cl s
  | .txp cl => Sys2Proof.Machine.execTxp cl s
  | .tabsel cl => Sys2Proof.Machine.execTabsel cl s
  | .awr cl => Sys2Proof.Machine.execAwr cl s
  | .gmv cl => Sys2Proof.Machine.execGmv cl s
  | .grvf cl => Sys2Proof.Machine.execGrvf cl s
  | .tst cl => Sys2Proof.Machine.execTst cl s
  | .vst cl => Sys2Proof.Machine.execVst cl s
  | .vsts cl => Sys2Proof.Machine.execVsts cl s
  | .cpyo cl => Sys2Proof.Machine.execCpyo cl s
  | .cpys cl => Sys2Proof.Machine.execCpys cl s
  | .ardst cl => Sys2Proof.Machine.execArdst cl s
  | .cpynw cl => Sys2Proof.Machine.execCpynw cl s
  | .wideOperationComplete cl q => Sys2Proof.Machine.execWideOperationComplete cl q s
  | .vatArbitration core => Sys2Proof.Machine.execVatArbitration core s
  | .vatGrant core => Sys2Proof.Machine.execVatGrant core s
  | .vatOccupancyEnd core => Sys2Proof.Machine.execVatOccupancyEnd core s
  | .leaseTimeout core => Sys2Proof.Machine.execLeaseTimeout core s
  | .vatCommandComplete core => Sys2Proof.Machine.execVatCommandComplete core s
  | .vatPowerDown core => Sys2Proof.Machine.execVatPowerDown core s
  | .translationWindowEnd bank h => Sys2Proof.Machine.execTranslationWindowEnd bank h s
  | .pageWalkComplete bank h => Sys2Proof.Machine.execPageWalkComplete bank h s
  | .packetHomeWrite cl tag => Sys2Proof.Machine.execPacketHomeWrite cl tag s
  | .packetReply cl tag => Sys2Proof.Machine.execPacketReply cl tag s
  | .fladdPerform bank => Sys2Proof.Machine.execFladdPerform bank s
  | .mwaitWake bank => Sys2Proof.Machine.execMwaitWake bank s
  | .mwaitTimeout bank => Sys2Proof.Machine.execMwaitTimeout bank s
  | .flwaitWake bank => Sys2Proof.Machine.execFlwaitWake bank s
  | .loopmFlagWake bank => Sys2Proof.Machine.execLoopmFlagWake bank s
  | .queueRegisterWake bank => Sys2Proof.Machine.execQueueRegisterWake bank s
  | .ringWaitWake bank => Sys2Proof.Machine.execRingWaitWake bank s
  | .joinReform bank g => Sys2Proof.Machine.execJoinReform bank g s
  | .drainComplete core k => Sys2Proof.Machine.execDrainComplete core k s
  | .place core => Sys2Proof.Machine.execPlace core s
  | .victimDiscard bank => Sys2Proof.Machine.execVictimDiscard bank s
  | .cancelDiscard bank => Sys2Proof.Machine.execCancelDiscard bank s
  | .commitBudget bank => Sys2Proof.Machine.execCommitBudget bank s
  | .watchdog bank => Sys2Proof.Machine.execWatchdog bank s
  | .takePendingTrap bank => Sys2Proof.Machine.execTakePendingTrap bank s
  | .pageFaultDrain cl => Sys2Proof.Machine.execPageFaultDrain cl s
  | .bankAResume cl => Sys2Proof.Machine.execBankAResume cl s
  | .pageRequestTimeout p id => Sys2Proof.Machine.execPageRequestTimeout p id s
  | .nfetchComplete bank reply => Sys2Proof.Machine.execNfetchComplete bank reply s
  | .forwardedRead name => Sys2Proof.Machine.execForwardedRead name s
  | .remoteProbe name => Sys2Proof.Machine.execRemoteProbe name s
  | .holderRegistration add device entry => Sys2Proof.Machine.execHolderRegistration add device entry s
  | .peerMemoryRequest pa n req => Sys2Proof.Machine.execPeerMemoryRequest pa n req s
  | .churnCapture die => Sys2Proof.Machine.execChurnCapture die s
  | .patrolScrub line => Sys2Proof.Machine.execPatrolScrub line s
  | .hostMemoryWrite pa bytes => Sys2Proof.Machine.execHostMemoryWrite pa bytes s
  | .jobRingNotify slot => Sys2Proof.Machine.execJobRingNotify slot s
  | .claim m => Sys2Proof.Machine.execClaim m s
  | .release m => Sys2Proof.Machine.execRelease m s
  | .heartbeat m => Sys2Proof.Machine.execHeartbeat m s
  | .handover m target => Sys2Proof.Machine.execHandover m target s
  | .accept m => Sys2Proof.Machine.execAccept m s
  | .ownershipLapse => Sys2Proof.Machine.execOwnershipLapse s
  | .partCreate m w => Sys2Proof.Machine.execPartCreate m w s
  | .partDestroy m w => Sys2Proof.Machine.execPartDestroy m w s
  | .moveIsland m w => Sys2Proof.Machine.execMoveIsland m w s
  | .moveGroup m w => Sys2Proof.Machine.execMoveGroup m w s
  | .partApply m w => Sys2Proof.Machine.execPartApply m w s
  | .partCmdComplete => Sys2Proof.Machine.execPartCmdComplete s
  | .managementRegisterWrite m off w => Sys2Proof.Machine.execManagementRegisterWrite m off w s
  | .refusedWritesRead m => Sys2Proof.Machine.execRefusedWritesRead m s
  | .pwrDomReq m imm req => Sys2Proof.Machine.execPwrDomReq m imm req s
  | .harvest w => Sys2Proof.Machine.execHarvest w s
  | .revoke w => Sys2Proof.Machine.execRevoke w s
  | .revokeAll w => Sys2Proof.Machine.execRevokeAll w s
  | .spFailedWrite core w => Sys2Proof.Machine.execSpFailedWrite core w s
  | .scratchpadRebuildDone core which => Sys2Proof.Machine.execScratchpadRebuildDone core which s
  | .vatIdleWrite core w => Sys2Proof.Machine.execVatIdleWrite core w s
  | .vfFlr slot => Sys2Proof.Machine.execVfFlr slot s
  | .pfFlr portB => Sys2Proof.Machine.execPfFlr portB s
  | .pageAnswerRetry p id => Sys2Proof.Machine.execPageAnswerRetry p id s
  | .pageAnswerFail p id => Sys2Proof.Machine.execPageAnswerFail p id s
  | .mctpRead off => Sys2Proof.Machine.execMctpRead off s
  | .mctpWrite off w => Sys2Proof.Machine.execMctpWrite off w s
  | .getEndpointId => Sys2Proof.Machine.execGetEndpointId s
  | .setEndpointId eid => Sys2Proof.Machine.execSetEndpointId eid s
  | .getMctpVersionSupport => Sys2Proof.Machine.execGetMctpVersionSupport s
  | .getMessageTypeSupport => Sys2Proof.Machine.execGetMessageTypeSupport s
  | .getVendorDefinedMessageSupport => Sys2Proof.Machine.execGetVendorDefinedMessageSupport s
  | .getVersion => Sys2Proof.Machine.execGetVersion s
  | .getCapabilities => Sys2Proof.Machine.execGetCapabilities s
  | .negotiateAlgorithms asym hash => Sys2Proof.Machine.execNegotiateAlgorithms asym hash s
  | .getDigests => Sys2Proof.Machine.execGetDigests s
  | .getCertificate slot => Sys2Proof.Machine.execGetCertificate slot s
  | .challenge slot nonce => Sys2Proof.Machine.execChallenge slot nonce s
  | .getMeasurements block => Sys2Proof.Machine.execGetMeasurements block s
  | .powerOn images => Sys2Proof.Machine.execPowerOn images s
  | .thermalThrottle watts temps => Sys2Proof.Machine.execThermalThrottle watts temps s
  | .clockRestore watts temps => Sys2Proof.Machine.execClockRestore watts temps s
  | .criticalShutdown temps => Sys2Proof.Machine.execCriticalShutdown temps s
  | .islandClockGate island => Sys2Proof.Machine.execIslandClockGate island s
  | .bucketRefill p which => Sys2Proof.Machine.execBucketRefill p which s
  | .hostMemoryRead pa n => Sys2Proof.Machine.execHostMemoryRead pa n s
  | .harvestCommandDone => Sys2Proof.Machine.execHarvestCommandDone s

end Sys2Proof.Machine
end

