-- ==== Sys2Proof/Machine/Next.lean ====
section
/-! DEFINITION. What a step runs: the head of the schedule, else a due step of another agent of the focused core, else the next issue
of the focused cluster. The meanings come in as the argument `ex`. -/

namespace Sys2Proof.Machine

/-- The step that runs a queued operation, by its wop (R111). -/
def wideStep (cl wop : Nat) : Option Instr :=
  let pick := fun (is : List Instr) (base : Nat) => is[wop - base]?
  if wop < 0x40 then
    pick [.tld cl, .vld cl, .vldg cl, .spcpy cl, .cpy cl, .cpyg cl, .cpyn cl, .cpyr cl, .tabld cl, .gload cl] 0
  else if wop < 0x50 then
    pick [.vaddf cl, .vsubf cl, .vmulf cl, .vfmaf cl, .vminf cl, .vmaxf cl, .vsgnf cl, .vexp2 cl, .vlog2 cl, .vrcp cl, .vrsqrt cl,
      .vcvt cl, .vcmpf cl, .vsel cl] 0x40
  else if wop < 0x60 then
    pick [.vaddi cl, .vsubi cl, .vmuli cl, .vand cl, .vor cl, .vxor cl, .vshl cl, .vshr cl, .vsar cl, .vmini cl, .vmaxi cl,
      .vcmpi cl] 0x50
  else if wop < 0x80 then
    pick [.vbcast cl, .viota cl, .vperm cl, .vredsum cl, .vredmax cl, .vargmax cl, .vtopk cl, .vpopc cl, .vmovs cl, .vscan cl,
      .plog cl] 0x60
  else if wop < 0x90 then pick [.mma cl, .mmas cl, .aclr cl, .ard cl, .txp cl, .tabsel cl, .awr cl] 0x80
  else if wop < 0xC0 then pick [.gmv cl, .grvf cl] 0x90
  else pick [.tst cl, .vst cl, .vsts cl, .cpyo cl, .cpys cl, .ardst cl, .cpynw cl] 0xC0

/-- The clusters of a core whose next operation waits for the Separator with its operands ready. -/
def State.sepWaiting (s : State) (core : Nat) : List Nat :=
  (List.range 4).filter (fun k => match s.ready (4 * core + k) .C with
    | some e => wopOf e.tmpl == 0x90 || wopOf e.tmpl == 0x91
    | none => false)

/-- Arrivals at a core's Separator are noted in order, the lowest cluster first on a tie (R331). -/
def State.noteArrivals (s : State) (core : Nat) : State :=
  let c := s.core core
  let w := s.sepWaiting core
  let q := c.sepQueue.filter w.contains ++ w.filter (fun k => !c.sepQueue.contains k)
  if q = c.sepQueue then s else s.setCore core { c with sepQueue := q }

/-- The same for every core with operations queued. -/
def State.arrive (s : State) : State :=
  (dedupNat ((s.clusters.map (·.1 / 4)) ++ s.cores.map (·.1))).foldl (fun (s : State) n => s.noteArrivals n) s

/-- Steps that a cluster's queues and packets have waiting. -/
def State.queueSteps (s : State) (cl : Nat) : List Instr :=
  let c := s.cluster cl
  let ofQueue := fun (q : QueueName) =>
    match c.queue q with
    | [] => []
    | _ => [Instr.wideOperationComplete cl q] ++ (match s.mover cl q with
        | some e => (wideStep cl (wopOf e.tmpl)).toList
        | none => [])
  ofQueue .L ++ ofQueue .C ++ ofQueue .S
    ++ c.packets.filterMap (fun x => match x.2 with
        | some p => some (if p.write then .packetHomeWrite cl x.1 else .packetReply cl x.1)
        | none => none)
    ++ (match s.headOp cl with
        | some e => if e.isVat then (wideStep cl (wopOf e.tmpl)).toList else []
        | none => [])
    ++ (if c.activeB then [.bankAResume cl] else [])

/-- Steps that a bank has waiting. -/
def State.bankSteps (s : State) (b : Nat) : List Instr :=
  let k := s.bank b
  match k.unit with
  | none => []
  | some u =>
    (if k.traps.isEmpty then [] else [.takePendingTrap b])
      ++ k.h.flatMap (fun x => if x.2.state == .translating || x.2.state == .pending then
          [.translationWindowEnd b x.1, .pageWalkComplete b x.1] else [])
      ++ (if k.fladds.isEmpty then [] else [.fladdPerform b])
      ++ (if u.victim || k.ending.isSome then [.victimDiscard b] else []) ++ (if u.cancelled then [.cancelDiscard b] else [])
      ++ (match k.joined with | some g => [.joinReform b g] | none => [])
      ++ (if k.page.isSome then [.pageFaultDrain (b / 2)] else [])
      ++ (if u.committed then [.commitBudget b] else [])
      ++ (if k.waits.isSome then [.mwaitTimeout b] else [])
      ++ (if s.stallCounts b then [.watchdog b] else [])

/-- Steps that a core's shared units have waiting. -/
def State.coreSteps (s : State) (core : Nat) : List Instr :=
  let c := s.core core
  (if c.vat.picked.isSome then [.vatGrant core] else [])
    ++ (if c.vat.running.isSome then [.vatOccupancyEnd core] else [])
    ++ (if c.vat.leaving.isEmpty then [] else [.vatCommandComplete core])
    ++ (if c.vat.lease.isSome then [.leaseTimeout core] else if c.vat.sessions = 0 then [] else [.vatArbitration core])
    ++ (if c.vat.asleep then [] else [.vatPowerDown core])
    ++ c.drains.filterMap (fun x => if x.2.isSome then some (.drainComplete core x.1) else none)
    ++ (match s.parts.find? (fun (x : Nat × Partition) => x.2.live && !x.2.waiting.isEmpty) with
        | some _ => [.place core]
        | none => [])

/-- Steps that the package has waiting. -/
def State.deviceSteps (s : State) : List Instr :=
  (if s.mgmt.running.isSome then [.partCmdComplete] else [])
    ++ (if bit s.mgmt.harvest 0 then [.harvestCommandDone] else [])
    ++ s.captures.filterMap (fun x => if x.2.isEmpty then none else some (.churnCapture x.1))
    ++ s.parts.flatMap (fun x => x.2.requests.map (fun q => .pageRequestTimeout x.1 q.id))
    ++ s.scrubs.map (fun x => .patrolScrub x.line)

/-- The ticks of a bank that waits in no stall begin anew (R416). -/
def State.renew (s : State) (bs : List Nat) : State :=
  bs.foldl (fun (s : State) b => s.setBank b { (s.bank b) with progress := s.now }) s

/-- Time passes; what waits in no stall meanwhile counts none of it (R416). -/
def State.pass (s : State) : State := s.elapse.renew ((s.banks.map (·.1)).filter s.waitsFreely)

/-- What follows an agent's move: evictions that nothing holds up any more end, operations that can go on arrive at the Separator, and time
passes. With core power removed time alone passes (R424). -/
def State.settle (s : State) : State := if s.powered then s.endEvictions.arrive.pass else s.elapse

/-- Steps of other agents that may be due, for the focused core and the package. -/
def State.waitingSteps (s : State) : List Instr :=
  let core := s.focus / 4
  (List.range 4).flatMap (fun k => s.queueSteps (4 * core + k) ++ s.bankSteps (8 * core + 2 * k) ++ s.bankSteps (8 * core + 2 * k + 1))
    ++ s.coreSteps core ++ s.deviceSteps

/-- The first of some steps that changes the state. -/
def State.firstDue (s : State) (ex : Exec) : List Instr → Option State
  | [] => none
  | i :: is =>
    match ex i s with
    | .next t => if t = s then s.firstDue ex is else some t
    | _ => s.firstDue ex is

/-- A step that needs no core power: the management block, MCTP, SPDM and power-on (R51, R424-R427). -/
def offCore (i : Instr) : Bool :=
  match i with
  | .claim _ => true
  | .release _ => true
  | .pfFlr _ => true
  | .heartbeat _ => true
  | .handover _ _ => true
  | .accept _ => true
  | .ownershipLapse => true
  | .partCreate _ _ => true
  | .partDestroy _ _ => true
  | .moveIsland _ _ => true
  | .moveGroup _ _ => true
  | .partApply _ _ => true
  | .partCmdComplete => true
  | .pwrDomReq _ _ _ => true
  | .managementRegisterWrite _ _ _ => true
  | .refusedWritesRead _ => true
  | .mctpRead _ => true
  | .mctpWrite _ _ => true
  | .getEndpointId => true
  | .setEndpointId _ => true
  | .getMctpVersionSupport => true
  | .getMessageTypeSupport => true
  | .getVendorDefinedMessageSupport => true
  | .getVersion => true
  | .getCapabilities => true
  | .negotiateAlgorithms _ _ => true
  | .getDigests => true
  | .getCertificate _ => true
  | .challenge _ _ => true
  | .getMeasurements _ => true
  | .powerOn _ => true
  | .criticalShutdown _ => true
  | _ => false

/-! ## Walks ahead (R366, R394) -/

/-- The walk of a publishing instruction, without what follows it. -/
def State.walkOf (s : State) (i : Instr) : Res :=
  match i with
  | .pub r h x c => s.pubWalk r h x c (fun s _ _ => .ok s)
  | .spawn h o => s.spawnWalk h o (fun s _ _ _ => .ok s)
  | .jdec h o => s.joinWalk h o
  | _ => .wait s

/-- The word that a cluster's bank is at, when it can issue. -/
def State.nextWord (s : State) : Option Instr :=
  let b := s.ib
  let i := s.cur.memberNo % s.cur.width
  let mates := (s.groupOf b).map (bankOf b)
  if s.cur.unit.isNone || s.paused b || s.cur.skew != 0 || mates.any (fun k => s.parked k || (s.bank k).nextTrap.isSome) then none
  else match (s.fetchWord b (s.cur.pc + BitVec.ofNat 64 (4 * i))).2 with
    | .ok w =>
      if s.cur.pc.toNat % (4 * s.cur.width) ≠ 0 ∨ (0 < i ∧ isControl w) then none
      else (match decodeWord w with | .ok x => some x | .error _ => none)
    | .error _ => none

/-- A drain or discard may come while a walk runs, which then runs to its end or first fault while its release is not performed (R394): the
walk of the instruction that a cluster is at is made, and the instruction has not executed. -/
def State.walkAhead (s : State) (cl : Nat) : State :=
  let t := { s with focus := cl }
  match t.nextWord with
  | none => s
  | some i =>
    match t.walkOf i with
    | .ok x => { x with focus := s.focus }
    | .trap x _ => if x.cur.walk.isSome then { x with focus := s.focus } else s
    | _ => s

/-! ## The step -/

/-- An SPDM request over the DOE mailbox of a PF that is present (R427). -/
def State.doe (s : State) (ex : Exec) (portB : Bool) (i : Instr) : Host.Outcome State Fault Refusal :=
  if isSpdm i && s.hasMaster (if portB then .pfB else .pfA) then onNext (ex i s) (fun t => t.overDoe s portB) else .next s

/-- What a step with core power runs, before time passes. With an empty schedule late stores reach the L1 first. -/
def State.movePowered (s : State) (ex : Exec) : Host.Outcome State Fault Refusal :=
  match s.agenda with
  | a :: rest =>
    let s := { s with agenda := rest }
    match a with
    | .event i => ex i s
    | .issue cl => ({ s with focus := cl } : State).issue ex
    | .issueLate cl => ({ s with focus := cl } : State).issue (lateExec ex)
    | .drainStore b k => .next (s.drainStore b k)
    | .walkAhead cl => .next (s.walkAhead cl)
    | .doe portB i => s.doe ex portB i
    | a => .next (s.input a)
  | [] =>
    match s.banks.find? (fun (x : Nat × Bank) => !x.2.late.isEmpty) with
    | some x => .next (s.drainStore x.1 0)
    | none =>
      match s.firstDue ex s.waitingSteps with
      | some t => .next t
      | none => s.issue ex

/-- What an entry of the schedule does with core power removed (R424): the management block, the ports' configuration and the surroundings
move; a VF's reset clears the counts of its region and no job completes; nothing else resumes, and its step changes nothing (log 43). -/
def State.moveDark (s : State) (ex : Exec) (a : Agenda) : Host.Outcome State Fault Refusal :=
  match a with
  | .event (.vfFlr slot) => .next (if (s.boundTo slot).isSome then s.clearCounts slot else s)
  | .event i => if offCore i then ex i s else .next s
  | .doe portB i => s.doe ex portB i
  | .pfRead .. => .next (s.input a)
  | .vfBarRead .. => .next (s.input a)
  | .vfBarWrite .. => .next (s.input a)
  | .msixRead .. => .next (s.input a)
  | .msixWrite .. => .next (s.input a)
  | .mapMailbox .. => .next (s.input a)
  | .peerEntry _ => .next (s.input a)
  | .badHostLine _ => .next (s.input a)
  | _ => .next s

/-- What a step runs, before time passes. -/
def State.move (s : State) (ex : Exec) : Host.Outcome State Fault Refusal :=
  if s.powered then s.movePowered ex
  else match s.agenda with
    | a :: rest => ({ s with agenda := rest } : State).moveDark ex a
    | [] => .next s

end Sys2Proof.Machine
end

