-- ==== Sys2Proof/Machine/Place0.lean ====
section
/-! DEFINITION. The loaded program that `State.withFetchWord` stands for (log 2): partition 0 with island 0 and channel group 0, one
address space, job 0, and its first unit on cluster 0. -/

namespace Sys2Proof.Machine

/-- Where the program lies: virtual and physical address of its 2,048 MiB page. -/
def programBase : Nat := 0x80000000

/-- The page tables of asid 0: a root at 0x10000 whose entry 0 names a table at 0x20000, whose entry 1 is a 2,048 MiB leaf that
maps the page to itself with r, w, x and u. -/
def programTables : List (Nat × Nat) :=
  [(0x80000, 0x10001), (0x10000, 0x20001), (0x20008, programBase + 0xFF)]

def pokeAll (m : List Host.Cell) : List (Nat × Nat) → List Host.Cell
  | [] => m
  | (a, v) :: cs => pokeAll (pokeCells m (cellsAt a (toBytes 8 v))) cs

/-- The job's first unit. -/
def programUnit : WorkUnit :=
  { id := 0, part := 0, asid := 0, crec := { w0 := BitVec.ofNat 64 programBase, w2 := 0xFFFF000000000000 }, s1 := 0, s2 := 1,
    enqTime := 0, order := 0, base := 0, width := 1, member := 0, startTime := 0, committed := false }

/-- The job: its context at 0xC0000000, its completion word at the start of its region's free area. -/
def programJob : Job :=
  { ctx := 0xC0000000, asid := 0, graphLog2 := 0, launchLog2 := 0, doneOff := 0x40000, doneVal := 1, seq := 0, raise := false,
    cancelOnFault := false }

/-- The state with that program loaded. The job's context stands with launch 0, graph 0, phase 0 and the job entry open, each with
one child outstanding. -/
def State.placed (s : State) (w : BitVec 32) : State :=
  let mem := pokeAll s.mem programTables
  let mem := pokeAll mem [(0xC0000010, 1), (0xC0000018, 0x10000), (0xC0000020, 1), (0xC0000028, 0x10000),
    (0xC0001020, 1), (0xC0001028, 0x10000), (0xC0001030, 1), (0xC0001038, 0x10000)]
  let mem := pokeCells mem (cellsAt programBase (toBytes 4 w.toNat))
  { s with
    mem := mem
    parts := SMap.set {} s.parts 0 { live := true, islands := 1, groups := 1, asidTable := 0x80000 }
    jobs := SMap.set none s.jobs 0 (some programJob)
    liveRegions := setTags s.liveRegions true [0, 0x800, 0xC00]
    banks := SMap.set {} s.banks 0 (startBank programUnit)
    unitNo := s.unitNo + 1
    agenda := []
    focus := 0 }

end Sys2Proof.Machine
end

