-- ==== Sys2Proof/Machine/Step.lean ====
section
/-! DEFINITION. One step of the package, and the state with one instruction placed where the next step fetches. -/

namespace Sys2Proof.Machine

/-- One step: an agent moves, then what follows from it and the time it takes (`State.settle`). -/
def step (s : State) : Host.Outcome State Fault Refusal := onNext (s.move exec) State.settle

/-- s with the instruction of bits w stored where the next step fetches, and all that its run takes set up (log 2): a partition, an
address space, an admitted job and a unit of width 1 on cluster 0, as `placed` builds them. -/
def State.withFetchWord (s : State) (nbits w : Nat) : State :=
  State.placed s (BitVec.ofNat 32 (w % 2 ^ nbits))

end Sys2Proof.Machine
end

