-- ==== Sys2Proof/Safety.lean ====
section
/-! DEFINITION. What counts as a safe run, and the words in which statements say how an instruction ends: which registers must be
free, what an access reaches, and the state an instruction leaves. -/

namespace Sys2Proof.Machine

/-! ## Safe runs -/

/-- The next step answers a next state: the machine neither stops nor refuses. -/
def State.safe (s : State) : Prop := ∃ t, step s = .next t

/-- An instruction or step of another agent answers a next state of which P holds. -/
def Answers (i : Instr) (s : State) (P : State → Prop) : Prop := ∃ t, exec i s = .next t ∧ P t

/-! ## How an instruction ends (R113, R126, R142) -/

/-- No register of the list is awaited (R109, R126). -/
def State.free (s : State) (rs : List (BitVec 6)) : Bool := !rs.any s.cur.isPending

/-- The instruction is done without a taken transfer, its own changes having led from s to x: the issue unit passes, the end test of
R142 runs, and nothing waits. -/
def State.passed (s x : State) : State := x.setBank s.ib { (x.bank s.ib).advance with progress := x.now }

/-- The instruction is done with a taken transfer to `target`. -/
def State.jumped (s x : State) (target : BitVec 64) : State :=
  x.setBank s.ib { ((x.bank s.ib).goTo target) with progress := x.now }

/-- The instruction waits at its boundary (R113, R126), for itself or for what `why` says: it will issue again. In a gang the stall is
noted for the bundle (R92). -/
def State.stalled (s x : State) (i : Instr) (why : WaitFor := .itself) : State :=
  let x := x.setBank s.ib ((x.bank s.ib).noteWait i why s.now s.fabric)
  if s.cur.width = 1 then x else { x with note := .stalled }

/-- The instruction raises a precise fault: the bank takes it, or in a gang it is noted for the bundle (R94). -/
def State.raises (s x : State) (t : Trap) : State :=
  if s.cur.width = 1 then x.takeTrap s.ib t else { x with note := .raised t }

/-- Bank b, which issues alone, waits at its boundary with instruction i, and nothing else holds it (R113, R126). -/
structure State.Waiting (s : State) (b : Nat) (i : Instr) : Prop where
  waits : ∃ w, (s.bank b).waits = some w ∧ w.instr = i
  width : (s.bank b).width = 1
  active : s.activeBank (b / 2) = b
  parked : s.parked b = false
  paused : s.paused b = false
  noTrap : (s.bank b).nextTrap = none

/-- The instruction leads from s to t when it issues; and so does the wake of a bank that waits with it, from the state that has the
bank's cluster in focus, the focus then being as it was. -/
def Runs (wake : Nat → Instr) (i : Instr) (s t : State) : Prop :=
  exec i s = .next t ∧
  ∀ (z : State) (b : Nat), z.Waiting b i → s = { z with focus := b / 2 } → exec (wake b) z = .next { t with focus := z.focus }

/-! ## What an access reaches (R65, R237, R247, R270, R271, R362) -/

/-- An access of n bytes at place a through the caches is let through at fabric ingress: it lies in the scratchpad, or it does not cross,
or its bucket has bytes left (R65). -/
def State.passes (s : State) (a : Place) : Bool := a.spad || !s.ingressWaits s.partNo a.pa

/-- A read of n bytes through h at offset o meets nothing that stops it: it gives the bytes bs and leaves x. -/
def State.Loads (s : State) (h : BitVec 4) (o : BitVec 64) (n : Nat) (a : Place) (x : State) (bs : List Byte) : Prop :=
  s.access h o n false = .ok a ∧ s.addPending a n = false ∧ s.passes a = true ∧
  ((a.spad = true ∧ ∃ c, s.curCore.spRead a.pa n = (c, some bs) ∧ x = s.setCurCore c) ∨
   (a.spad = false ∧ s.objectFault (some s.coreNo) a.pa n false = none ∧ (s.chargeAt a n).fillFault a.pa n = (x, none) ∧
    bs = x.bytes a.pa n))

/-- A write of n bytes through h at offset o meets nothing that stops it before the bytes are written. -/
def State.Stores (s : State) (h : BitVec 4) (o : BitVec 64) (n : Nat) (a : Place) : Prop :=
  s.access h o n true = .ok a ∧ s.addPending a n = false ∧ s.passes a = true ∧
  (a.spad = false → s.objectFault (some s.coreNo) a.pa n true = none ∧ (s.chargeAt a n).writeFault a.pa n = (s.chargeAt a n, none))

/-- A synchronising access is performed, and leaves x (R383-R385). -/
def State.Synchronises (s : State) (a : Place) (scope : BitVec 3) (x : State) : Prop :=
  if a.spad || decide (memKind a.pa = MemKind.host) then x = s else s.syncAccess s.partNo s.coreNo scope a.pa = (x, true)

/-- An operation at a Crock reaches place a and meets nothing that stops it there; y is s with its request charged (R65, R237, R386, R389,
R413). -/
def State.AtCrock (s : State) (h : BitVec 4) (o : BitVec 64) (n : Nat) (write : Bool) (a : Place) (y : State) : Prop :=
  s.access h o n write = .ok a ∧ s.addPending a n = false ∧
  if a.spad then y = s
  else memKind a.pa ≠ .host ∧ s.objectFault (some s.coreNo) a.pa n write = none ∧ s.ingressOpen s.partNo a.pa = true ∧
    s.crockFails a.pa = false ∧ y = s.charge s.partNo a.pa 8

/-- A read at a place meets nothing that stops it: it gives the bytes bs and leaves x (R247, R271, R362). -/
def State.Finds (y : State) (a : Place) (n : Nat) (x : State) (bs : List Byte) : Prop :=
  (a.spad = true ∧ ∃ c, y.curCore.spRead a.pa n = (c, some bs) ∧ x = y.setCurCore c) ∨
  (a.spad = false ∧ y.objectFault (some y.coreNo) a.pa n false = none ∧ y.fillFault a.pa n = (x, none) ∧ bs = x.bytes a.pa n)

/-- A write at a place meets nothing that stops it (R35, R271, R362). -/
def State.Takes (y : State) (a : Place) (n : Nat) : Prop :=
  a.spad = false → y.objectFault (some y.coreNo) a.pa n true = none ∧ y.writeFault a.pa n = (y, none)

/-- The tag of the word at a place, which has been read, is t; x becomes y, where the code over a scratchpad's tags may correct one (R246). -/
def State.TagReads (x : State) (a : Place) (y : State) (t : Bool) : Prop :=
  if a.spad then ∃ c, x.curCore.readTag a.pa = (c, some t) ∧ y = x.setCurCore c else y = x ∧ t = x.tagAt a.pa

/-- An atomic access of n bytes meets nothing that stops it: it finds the bytes bs and leaves x (R65, R237, R362, R389); one whose order
makes it a release has nothing of its bank on its way before it (R376). -/
def State.Atomically (s : State) (h : BitVec 4) (o : BitVec 64) (n : Nat) (order : BitVec 2) (a : Place) (x : State) (bs : List Byte) :
    Prop :=
  (bit order 1 = true → s.wayClear = true) ∧ ∃ y, s.AtCrock h o n true a y ∧ y.Takes a n ∧ y.Finds a n x bs

/-- The synchronisation that the order bits ask for is performed, and leaves y: none for a relaxed access (R390). -/
def State.Ordered (x : State) (a : Place) (order : BitVec 2) (scope : BitVec 3) (y : State) : Prop :=
  if order = 0 then y = x else x.Synchronises a scope y

/-! ## Frames -/

/-- Of s and t only bank b differs. -/
structure OnlyBank (s t : State) (b : Nat) : Prop where
  state : t = { s with banks := t.banks }
  banks : ∀ k, k ≠ b → t.bank k = s.bank k
  bytes : ∀ pa, t.byte pa = s.byte pa
  tags : ∀ pa, t.tagAt pa = s.tagAt pa

/-- Every register and counter of the bank but its scalar registers, and where it goes on, is as it was; nothing waits, and what the
instruction had to raise for a FAIL is done with (R411). -/
def Bank.SameButScalars (x y : Bank) (now : BitVec 64) : Prop :=
  y = { x with s := y.s, pc := y.pc, lc := y.lc, loops := y.loops, waits := none, watch := none, page := x.donePage, progress := now }

/-- The instruction wrote s[d] := v, passed its issue unit, and left everything else alone. -/
structure Wrote (s t : State) (d : BitVec 6) (v : BitVec 64) : Prop where
  only : OnlyBank s t s.ib
  bank : s.cur.SameButScalars (t.bank s.ib) s.now
  value : t.reg d = if d = 0 then 0 else v
  regs : ∀ r, r ≠ d → t.reg r = s.reg r
  pc : (t.bank s.ib).pc = s.cur.advance.pc
  lc : (t.bank s.ib).lc = s.cur.advance.lc
  loops : (t.bank s.ib).loops = s.cur.advance.loops

/-- An instruction with destination d and sources rs completes with a value of s[d], and changes nothing else. -/
def Yields (i : Instr) (rs : List (BitVec 6)) (d : BitVec 6) (v : State → BitVec 64) : Prop :=
  ∀ s : State, s.free (d :: rs) = true → Answers i s (fun t => Wrote s t d (v s))

/-- Destination and sources of an integer instruction (R136-R138); none for any other. -/
def integerOperands (i : Instr) : Option (BitVec 6 × List (BitVec 6)) :=
  match i with
  | .add d a b => some (d, [a, b])
  | .sub d a b => some (d, [a, b])
  | .mul d a b => some (d, [a, b])
  | .and d a b => some (d, [a, b])
  | .or d a b => some (d, [a, b])
  | .xor d a b => some (d, [a, b])
  | .andn d a b => some (d, [a, b])
  | .shl d a b => some (d, [a, b])
  | .shr d a b => some (d, [a, b])
  | .sar d a b => some (d, [a, b])
  | .ror d a b => some (d, [a, b])
  | .mulh d a b _ => some (d, [a, b])
  | .div d a b _ => some (d, [a, b])
  | .rem d a b _ => some (d, [a, b])
  | .min d a b _ => some (d, [a, b])
  | .max d a b _ => some (d, [a, b])
  | .cmp d a b _ => some (d, [a, b])
  | .shadd d a b _ => some (d, [a, b])
  | .bfx d a b _ => some (d, [a, b])
  | .bfi d a b _ => some (d, [a, b])
  | .sel d a b c => some (d, [a, b, c])
  | .clz d a => some (d, [a])
  | .ctz d a => some (d, [a])
  | .popc d a => some (d, [a])
  | .addi d a _ => some (d, [a])
  | .andi d a _ => some (d, [a])
  | .ori d a _ => some (d, [a])
  | .xori d a _ => some (d, [a])
  | .shli d a _ => some (d, [a])
  | .shri d a _ => some (d, [a])
  | .sari d a _ => some (d, [a])
  | .muli d a _ => some (d, [a])
  | .cmpeqi d a _ => some (d, [a])
  | .cmplti d a _ => some (d, [a])
  | .cmpltui d a _ => some (d, [a])
  | .li d _ => some (d, [])
  | .lis d _ => some (d, [])
  | .addpc d _ => some (d, [])
  | _ => none

/-- The plain stores in state s: handle, offset, size and source register (R239, R240); none for any other instruction. -/
def storeForm (i : Instr) (s : State) : Option (BitVec 4 × BitVec 64 × Nat × BitVec 6) :=
  match i with
  | .stb r h o => some (h, BitVec.ofNat 64 o.toNat, 1, r)
  | .sth r h o => some (h, BitVec.ofNat 64 (2 * o.toNat), 2, r)
  | .stw r h o => some (h, BitVec.ofNat 64 (4 * o.toNat), 4, r)
  | .std r h o => some (h, BitVec.ofNat 64 (8 * o.toNat), 8, r)
  | .stx r h x z => some (h, s.reg x, 2 ^ z.toNat, r)
  | _ => none

/-- The plain loads in state s: destination, handle, offset, size, and whether the value is sign-extended (R239, R240). -/
def loadForm (i : Instr) (s : State) : Option (BitVec 6 × BitVec 4 × BitVec 64 × Nat × Bool) :=
  match i with
  | .ldb d h o => some (d, h, BitVec.ofNat 64 o.toNat, 1, true)
  | .ldbu d h o => some (d, h, BitVec.ofNat 64 o.toNat, 1, false)
  | .ldh d h o => some (d, h, BitVec.ofNat 64 (2 * o.toNat), 2, true)
  | .ldhu d h o => some (d, h, BitVec.ofNat 64 (2 * o.toNat), 2, false)
  | .ldw d h o => some (d, h, BitVec.ofNat 64 (4 * o.toNat), 4, true)
  | .ldwu d h o => some (d, h, BitVec.ofNat 64 (4 * o.toNat), 4, false)
  | .ldd d h o => some (d, h, BitVec.ofNat 64 (8 * o.toNat), 8, false)
  | .ldx d h x g z => some (d, h, s.reg x, 2 ^ z.toNat, g == 1)
  | _ => none

/-- The registers a plain load or store names (R126). -/
def accessRegs (i : Instr) : List (BitVec 6) :=
  match i with
  | .ldb d _ _ => [d]
  | .ldbu d _ _ => [d]
  | .ldh d _ _ => [d]
  | .ldhu d _ _ => [d]
  | .ldw d _ _ => [d]
  | .ldwu d _ _ => [d]
  | .ldd d _ _ => [d]
  | .ldx d _ x _ _ => [d, x]
  | .stb r _ _ => [r]
  | .sth r _ _ => [r]
  | .stw r _ _ => [r]
  | .std r _ _ => [r]
  | .stx r _ x _ => [r, x]
  | _ => []

/-! ## Wide operations (R105-R108, R177-R181) -/

/-- The operation at the head of its queue starts and has executed: it takes its tokens, and these writes are made when it completes; x
is s but for what reading its operands left behind (R105, R107, R108), and sn is what a GMV finds at its start (R332). -/
def Executes (i : Instr) (s x : State) (cl : Nat) (q : QueueName) (e : QEntry) (ws : List WideWrite)
    (sn : Option GmvView := none) : Prop :=
  exec i s = .next (x.startOp cl q { e with seen := sn } (.executed ws))

/-- The operation at the head of its queue faults once it has started: what stands is written at once, its queue halts and a deferred
trap is pending (R405). -/
def FailsWith (i : Instr) (s x : State) (cl : Nat) (q : QueueName) (e : QEntry) (ws : List WideWrite) (c : Code) (info : BitVec 64) : Prop :=
  exec i s = .next (((x.startOp cl q e (.executed [])).applyWrites (s.activeBank cl) ws).failOp cl q e c info)

/-- The operation of cluster cl that can start next in the queue of a wide opcode. -/
def State.Starts (s : State) (cl wop : Nat) (e : QEntry) : Prop := s.ready cl (routeOf wop) = some e ∧ wopOf e.tmpl = wop

/-- The value an operand field supplies to lane l (R180). -/
def QEntry.source (e : QEntry) (b : Bank) (k : Nat) (fp : Bool) (l : Nat) : Lane :=
  let f := fieldOf e.tmpl k
  match bits f 14 2 with
  | 0 => SMap.get 0 b.v (64 * bits f 0 5 + l)
  | 3 => if fp then BitVec.ofNat 32 (bits f 0 14 * 2 ^ 18) else BitVec.ofInt 32 (sextNat (bits f 0 14) 14)
  | _ => (SMap.get 0 e.vals k).extractLsb' 0 32

/-- Lane l is active under the governing predicate of F5 (R177). -/
def QEntry.active (e : QEntry) (b : Bank) (l : Nat) : Bool :=
  let n := bits (fieldOf e.tmpl 5) 0 3
  n == 0 || (SMap.get 0 b.p n).getLsbD l

/-- A lane destination: an active lane takes its value, an inactive one becomes 0 with the zeroing bit and else keeps its own (R177). -/
def QEntry.Fills (e : QEntry) (b : Bank) (lanes : List Lane) (f : Nat → Lane) : Prop :=
  lanes.length = 64 ∧ ∀ l < 64, lanes.getD l 0 = if e.active b l then f l
    else if (fieldOf e.tmpl 5).getLsbD 3 then 0 else SMap.get 0 b.v (64 * bits (fieldOf e.tmpl 1) 0 5 + l)

/-- Flags are those that some active lane raises (R174). -/
def QEntry.Raises (e : QEntry) (b : Bank) (flags : Flags) (f : Nat → Flags) : Prop :=
  ∀ k < 6, flags.getLsbD k = true ↔ ∃ l < 64, e.active b l = true ∧ (f l).getLsbD k = true

/-- A lane-wise operation writes these values with these flags to the vector destination of F1. -/
def LaneWise (i : Nat → Instr) (wop : Nat) (f : QEntry → Bank → Nat → Lane × Flags) : Prop :=
  ∀ (s : State) (cl : Nat) (e : QEntry), s.Starts cl wop e →
    let b := s.bank (s.activeBank cl)
    ∃ lanes flags, Executes (i cl) s s cl .C e [.vreg (bits (fieldOf e.tmpl 1) 0 5) lanes, .flags flags] ∧
      e.Fills b lanes (fun l => (f e b l).1) ∧ e.Raises b flags (fun l => (f e b l).2)

/-- A lane-wise comparison writes these conditions with these flags to the predicate destination of F1. -/
def PredicateWise (i : Nat → Instr) (wop : Nat) (f : QEntry → Bank → Nat → Bool × Flags) : Prop :=
  ∀ (s : State) (cl : Nat) (e : QEntry), s.Starts cl wop e →
    let b := s.bank (s.activeBank cl)
    let d := bits (fieldOf e.tmpl 1) 0 3
    ∃ v flags, Executes (i cl) s s cl .C e [.preg d v, .flags flags] ∧
      (∀ l < 64, v.getLsbD l = if e.active b l then (f e b l).1 else !(fieldOf e.tmpl 5).getLsbD 3 && (b.getP d).getLsbD l) ∧
      e.Raises b flags (fun l => (f e b l).2)

end Sys2Proof.Machine
end

