-- ==== Sys2Proof/Certificates/Slice0/Obligations.lean ====
section
/-! DEFINITION. The statements for the provers: what the spec's rules say of the model, one proposition each. -/

open Sys2Proof Sys2Proof.Machine

/-- For every well-formed instruction that has a word, the decoder reads from that word exactly the instruction, with every operand. -/
def Obligations.DecodeOfEncode : Prop :=
  ∀ (i : Instr) (w : BitVec 32), i.wellFormed = true → encode i = some w → decode w = .ok i

/-- If a word decodes to an instruction, the instruction is well-formed and its encoding is that word: no bit of a word is ignored, and no two words decode to one instruction. -/
def Obligations.EncodeOfDecode : Prop :=
  ∀ (w : BitVec 32) (i : Instr), decode w = .ok i → i.wellFormed = true ∧ encode i = some w

/-- The words of the example after R138 (div.u, rem, div, mulh.su, bfx, clz, cmpltui, sel) decode to those instructions. -/
def Obligations.WordsOfTheSpecDecode : Prop :=
  decode 0x040C1081 = .ok (.div 3 1 2 1) ∧ decode 0x050C1080 = .ok (.rem 3 1 2 0) ∧ decode 0x040C1080 = .ok (.div 3 1 2 0) ∧
  decode 0x030C1082 = .ok (.mulh 3 1 2 2) ∧ decode 0x160C1087 = .ok (.bfx 3 1 2 7) ∧ decode 0x120C2000 = .ok (.clz 3 2) ∧
  decode 0x2A0C1FFF = .ok (.cmpltui 3 1 0xFFF) ∧ decode 0x110C1084 = .ok (.sel 3 1 2 4)

/-- When a cluster that issues alone, owes no trap and is let through at fabric ingress, fetches a word that does not decode, the bank takes a precise ILLEGAL fault whose datum is the word, and nothing executes; at a pc that is no multiple of 4, or where ERET found bits [1:0] that are not 0, it takes GANG with the word as its datum instead, whatever the word is. -/
def Obligations.ReservedWordRaisesIllegal : Prop :=
  ∀ (s x : State) (w : BitVec 32), s.cur.nextTrap = none → s.fetchWaits s.ib s.cur.pc = false →
    s.fetchWord s.ib s.cur.pc = (x, .ok w) →
    (s.cur.pc.toNat % 4 ≠ 0 ∨ s.cur.skew ≠ 0 → s.issueOne exec = .next (x.takeTrap s.ib { code := 0x1D, info := w.setWidth 64 })) ∧
    (∀ r : Reject, s.cur.pc.toNat % 4 = 0 → s.cur.skew = 0 → decode w = .error r →
      s.issueOne exec = .next (x.takeTrap s.ib { code := 0x01, info := w.setWidth 64 }))

/-- When the schedule names cluster cl, its bank holds a unit that issues at width 1 and is neither paused nor parked and owes no trap, its pc is a multiple of 4 and translates for an instruction fetch, its line is not private to another core, fabric ingress lets the request through, the 4 bytes there are read without a fault and decode to i, the step is exec of i at that state; a cluster that has come to wait lets another issue next, then evictions that nothing holds up end, operations that can go on arrive at the Separator, and time passes. (Which cluster issues, what then follows and the time it takes are the model's choice: logs 9 and 3.) -/
def Obligations.StepRunsDecodedInstruction : Prop :=
  ∀ (s x y : State) (cl : Nat) (rest : List Agenda) (u : WorkUnit) (g : Page) (i : Instr),
    let s1 := { s with agenda := rest, focus := cl }
    let pa := g.at s1.cur.pc
    s.powered = true → s.agenda = .issue cl :: rest →
    s1.cur.unit = some u → s1.cur.width = 1 → s1.paused s1.ib = false → s1.parked s1.ib = false → s1.cur.nextTrap = none →
    s1.cur.pc.toNat % 4 = 0 → s1.cur.skew = 0 → s1.fetchWaits s1.ib s1.cur.pc = false →
    s1.walk u.part u.asid s1.cur.pc { user := decide (s1.cur.level = 0), exec := true } = (y, .ok g) →
    y.foreignPrivate (some (s1.ib / 8)) pa 4 = false → (y.request u.part pa 4).fillFault pa 4 = (x, none) →
    decode (BitVec.ofNat 32 (x.peek pa 4)) = .ok i →
    step s = onNext (exec i x) (fun t => t.passOn.settle)

/-- Nothing stops: for every constructor of Instr, every operand and every state, exec answers a next state; and from every state the step answers a next state, gangs and bundles included. With core power removed nothing resumes: a step that takes from the schedule an issue, a late store, a walk or a step of the cores changes nothing but the time, and so does one with an empty schedule; a step that needs no core is made. (Which steps go on without core power, those of `offCore` and a VF's reset, is log 43.) -/
def Obligations.NothingStops : Prop :=
  (∀ (i : Instr) (s : State), ∃ t, exec i s = .next t) ∧
  ((∀ s : State, s.safe) ∧
  (∀ s : State, s.powered = false → s.agenda = [] → step s = .next s.elapse) ∧
  (∀ (s : State) (a : Agenda) (rest : List Agenda), s.powered = false → s.agenda = a :: rest →
    (∀ i, a = .event i → offCore i = true → step s = onNext (exec i { s with agenda := rest }) State.settle) ∧
    ((∃ cl, a = .issue cl ∨ a = .issueLate cl ∨ a = .walkAhead cl) ∨ (∃ b k, a = .drainStore b k) ∨
      (∃ i, a = .event i ∧ offCore i = false ∧ ∀ slot, i ≠ .vfFlr slot)) →
    step s = .next ({ s with agenda := rest } : State).elapse))

/-- For each of ADD, SUB, MUL, MULH, DIV, REM, AND, OR, XOR, ANDN, SHL, SHR, SAR, ROR, MIN, MAX, CMP, SEL, CLZ, CTZ, POPC, SHADD, BFX and BFI, when its registers (s[d] among them, as R136 says of BFI) are not awaited: it completes, s[d] holds the value of the table (0 for d = 0), every other register is unchanged, and nothing else changes but where the unit goes on. -/
def Obligations.IntegerRegisterForms : Prop :=
  (∀ d a b, Yields (.add d a b) [a, b] d (fun s => bits64 ((s.reg a).toNat + (s.reg b).toNat))) ∧
  (∀ d a b, Yields (.sub d a b) [a, b] d (fun s => bits64 ((s.reg a).toNat - (s.reg b).toNat : Int))) ∧
  (∀ d a b, Yields (.mul d a b) [a, b] d (fun s => bits64 ((s.reg a).toNat * (s.reg b).toNat))) ∧
  (∀ d a b, Yields (.mulh d a b 0) [a, b] d (fun s => bits64 (((s.reg a).toInt * (s.reg b).toInt) / 2 ^ 64))) ∧
  (∀ d a b, Yields (.mulh d a b 1) [a, b] d (fun s => bits64 (((s.reg a).toNat * (s.reg b).toNat : Int) / 2 ^ 64))) ∧
  (∀ d a b, Yields (.mulh d a b 2) [a, b] d (fun s => bits64 (((s.reg a).toInt * ((s.reg b).toNat : Int)) / 2 ^ 64))) ∧
  (∀ d a b, Yields (.div d a b 0) [a, b] d (fun s =>
    if s.reg b = 0 then 0xFFFFFFFFFFFFFFFF else bits64 ((s.reg a).toInt.tdiv (s.reg b).toInt))) ∧
  (∀ d a b, Yields (.div d a b 1) [a, b] d (fun s =>
    if s.reg b = 0 then 0xFFFFFFFFFFFFFFFF else bits64 ((s.reg a).toNat / (s.reg b).toNat))) ∧
  (∀ d a b, Yields (.rem d a b 0) [a, b] d (fun s =>
    if s.reg b = 0 then s.reg a
    else bits64 ((s.reg a).toInt - (s.reg b).toInt * (s.reg a).toInt.tdiv (s.reg b).toInt))) ∧
  (∀ d a b, Yields (.rem d a b 1) [a, b] d (fun s =>
    if s.reg b = 0 then s.reg a
    else bits64 ((s.reg a).toNat - (s.reg b).toNat * ((s.reg a).toNat / (s.reg b).toNat) : Int))) ∧
  (∀ d a b, Yields (.and d a b) [a, b] d (fun s => s.reg a &&& s.reg b)) ∧
  (∀ d a b, Yields (.or d a b) [a, b] d (fun s => s.reg a ||| s.reg b)) ∧
  (∀ d a b, Yields (.xor d a b) [a, b] d (fun s => s.reg a ^^^ s.reg b)) ∧
  (∀ d a b, Yields (.andn d a b) [a, b] d (fun s => s.reg a &&& ~~~(s.reg b))) ∧
  (∀ d a b, Yields (.shl d a b) [a, b] d (fun s => bits64 ((s.reg a).toNat * 2 ^ bits (s.reg b) 0 6))) ∧
  (∀ d a b, Yields (.shr d a b) [a, b] d (fun s => bits64 ((s.reg a).toNat / 2 ^ bits (s.reg b) 0 6))) ∧
  (∀ d a b, Yields (.sar d a b) [a, b] d (fun s => bits64 ((s.reg a).toInt / 2 ^ bits (s.reg b) 0 6))) ∧
  (∀ d a b, Yields (.ror d a b) [a, b] d (fun s =>
    s.reg a >>> bits (s.reg b) 0 6 ||| s.reg a <<< ((64 - bits (s.reg b) 0 6) % 64))) ∧
  (∀ d a b, Yields (.min d a b 0) [a, b] d (fun s => bits64 (min (s.reg a).toInt (s.reg b).toInt))) ∧
  (∀ d a b, Yields (.min d a b 1) [a, b] d (fun s => bits64 (min (s.reg a).toNat (s.reg b).toNat))) ∧
  (∀ d a b, Yields (.max d a b 0) [a, b] d (fun s => bits64 (max (s.reg a).toInt (s.reg b).toInt))) ∧
  (∀ d a b, Yields (.max d a b 1) [a, b] d (fun s => bits64 (max (s.reg a).toNat (s.reg b).toNat))) ∧
  (∀ d a b, Yields (.cmp d a b 0) [a, b] d (fun s => if s.reg a = s.reg b then 1 else 0)) ∧
  (∀ d a b, Yields (.cmp d a b 1) [a, b] d (fun s => if s.reg a ≠ s.reg b then 1 else 0)) ∧
  (∀ d a b, Yields (.cmp d a b 2) [a, b] d (fun s => if (s.reg a).toInt < (s.reg b).toInt then 1 else 0)) ∧
  (∀ d a b, Yields (.cmp d a b 3) [a, b] d (fun s => if (s.reg b).toInt ≤ (s.reg a).toInt then 1 else 0)) ∧
  (∀ d a b, Yields (.cmp d a b 4) [a, b] d (fun s => if (s.reg a).toNat < (s.reg b).toNat then 1 else 0)) ∧
  (∀ d a b, Yields (.cmp d a b 5) [a, b] d (fun s => if (s.reg b).toNat ≤ (s.reg a).toNat then 1 else 0)) ∧
  (∀ d a b c, Yields (.sel d a b c) [a, b, c] d (fun s => if s.reg c ≠ 0 then s.reg a else s.reg b)) ∧
  (∀ d a, Yields (.clz d a) [a] d (fun s =>
    BitVec.ofNat 64 ((List.range 64).takeWhile (fun k => !(s.reg a).getLsbD (63 - k))).length)) ∧
  (∀ d a, Yields (.ctz d a) [a] d (fun s =>
    BitVec.ofNat 64 ((List.range 64).takeWhile (fun k => !(s.reg a).getLsbD k)).length)) ∧
  (∀ d a, Yields (.popc d a) [a] d (fun s =>
    BitVec.ofNat 64 ((List.range 64).filter (fun k => (s.reg a).getLsbD k)).length)) ∧
  (∀ d a b k, Yields (.shadd d a b k) [a, b] d (fun s => bits64 ((s.reg a).toNat + (s.reg b).toNat * 2 ^ k.toNat))) ∧
  (∀ d a b w, Yields (.bfx d a b w) [a, b] d (fun s =>
    BitVec.ofNat 64 ((s.reg a).toNat / 2 ^ bits (s.reg b) 0 6 % 2 ^ (w.toNat + 1)))) ∧
  (∀ d a b w, Yields (.bfi d a b w) [a, b] d (fun s =>
    let pos := bits (s.reg b) 0 6
    let mask := BitVec.ofNat 64 (2 ^ (w.toNat + 1) - 1)
    (s.reg d &&& ~~~(mask <<< pos)) ||| ((s.reg a &&& mask) <<< pos)))

/-- For each of ADDI, ANDI, ORI, XORI, SHLI, SHRI, SARI, MULI, CMPEQI, CMPLTI, CMPLTUI, LI, LIS and ADDPC, when its registers are not awaited: it completes, s[d] holds the value of the tables (0 for d = 0), every other register is unchanged, and nothing else changes but where the unit goes on. The pc of ADDPC is that of the word, or of its bundle in a gang (each member holds the bundle's pc). -/
def Obligations.IntegerImmediateForms : Prop :=
  (∀ d a i, Yields (.addi d a i) [a] d (fun s => bits64 ((s.reg a).toNat + i.toInt))) ∧
  (∀ d a i, Yields (.andi d a i) [a] d (fun s => s.reg a &&& bits64 i.toInt)) ∧
  (∀ d a i, Yields (.ori d a i) [a] d (fun s => s.reg a ||| BitVec.ofNat 64 i.toNat)) ∧
  (∀ d a i, Yields (.xori d a i) [a] d (fun s => s.reg a ^^^ BitVec.ofNat 64 i.toNat)) ∧
  (∀ d a i, Yields (.shli d a i) [a] d (fun s => bits64 ((s.reg a).toNat * 2 ^ i.toNat))) ∧
  (∀ d a i, Yields (.shri d a i) [a] d (fun s => bits64 ((s.reg a).toNat / 2 ^ i.toNat))) ∧
  (∀ d a i, Yields (.sari d a i) [a] d (fun s => bits64 ((s.reg a).toInt / 2 ^ i.toNat))) ∧
  (∀ d a i, Yields (.muli d a i) [a] d (fun s => bits64 ((s.reg a).toNat * i.toInt))) ∧
  (∀ d a i, Yields (.cmpeqi d a i) [a] d (fun s => if s.reg a = bits64 i.toInt then 1 else 0)) ∧
  (∀ d a i, Yields (.cmplti d a i) [a] d (fun s => if (s.reg a).toInt < i.toInt then 1 else 0)) ∧
  (∀ d a i, Yields (.cmpltui d a i) [a] d (fun s => if (s.reg a).toNat < (bits64 i.toInt).toNat then 1 else 0)) ∧
  (∀ d i, Yields (.li d i) [] d (fun _ => bits64 i.toInt)) ∧
  (∀ d i, Yields (.lis d i) [] d (fun s => bits64 ((s.reg d).toNat * 2 ^ 18) ||| BitVec.ofNat 64 i.toNat)) ∧
  (∀ d i, Yields (.addpc d i) [] d (fun s => bits64 (s.cur.pc.toNat + i.toInt)))

/-- LOOP sets lc[N], start[N] and end[N] as the rule says, arms the level and goes on, or disarms it and goes past the end when the count is 0. After an issue unit at X without a taken transfer the end test runs: a level that is armed and ends at X is counted down modulo 2^64; a nonzero count sends pc to start and stops the test, a zero count disarms the level and falls through to the next. A level that is not armed or ends elsewhere is left alone. A taken transfer is not tested. LOOPM raises ALIGN when its flag is not 8-byte-aligned, waits while its flag word is 0, and then acts as LOOP with the count that stands behind it; so it does when LOOPM_FLAG_WAKE runs a waiting LOOPM again. (That a count of 0 goes past the end as a taken transfer, without an end test, is the model's choice: log 16.) -/
def Obligations.EndTestAndPassing : Prop :=
  (∀ (b : Bank) (n : Nat) (x : BitVec 64),
    let l := SMap.get {} b.loops n
    let c := SMap.get 0 b.lc n - 1
    let b' := { b with lc := SMap.set 0 b.lc n c }
    (¬ (l.armed = true ∧ x = l.last) → b.endTest n x = (b, false)) ∧
    (l.armed = true → x = l.last → c ≠ 0 → b.endTest n x = ({ b' with pc := l.start }, true)) ∧
    (l.armed = true → x = l.last → c = 0 →
      b.endTest n x = ({ b' with loops := SMap.set {} b.loops n { l with armed := false } }, false))) ∧
  (∀ (b : Bank) (x : BitVec 64), b.loopEnd x =
    if (b.endTest 1 x).2 then (b.endTest 1 x).1 else ((b.endTest 1 x).1.endTest 0 x).1) ∧
  (∀ b : Bank, b.memberNo % b.width = 0 →
    b.advance = ({ b with pc := b.pc + BitVec.ofNat 64 (4 * b.width), waits := none, watch := none, page := b.donePage } : Bank).loopEnd b.pc) ∧
  (∀ (s : State) (a : BitVec 6) (l : BitVec 2) (e : BitVec 12), s.free [a] = true →
    let p := s.cur.pc
    let u := BitVec.ofNat 64 (4 * s.cur.width)
    let last := p + u * BitVec.ofNat 64 e.toNat
    let armed := fun (on : Bool) => s.setCur { s.cur with
      lc := SMap.set 0 s.cur.lc l.toNat (s.reg a)
      loops := SMap.set {} s.cur.loops l.toNat { armed := on, start := p + u, last := last } }
    exec (.loop a l e) s = .next (if s.reg a = 0 then s.jumped (armed false) (last + u) else s.passed (armed true))) ∧
  (∀ (s : State) (h : BitVec 4) (l : BitVec 2) (f : BitVec 6) (e : BitVec 12),
    let va := (s.cur.handle h.toNat).va + BitVec.ofNat 64 (8 * f.toNat)
    va.toNat % 8 ≠ 0 → exec (.loopm h l f e) s = .next (s.raises s { code := 0x08, info := va })) ∧
  (∀ (s x y z : State) (h : BitVec 4) (l : BitVec 2) (f : BitVec 6) (e : BitVec 12) (a b : Place) (bs cs : List Byte),
    let o := BitVec.ofNat 64 (8 * f.toNat)
    s.Loads h o 8 a x bs →
    (ofBytes bs = 0 → Runs .loopmFlagWake (.loopm h l f e) s (s.stalled x (.loopm h l f e))) ∧
    (ofBytes bs ≠ 0 → x.Synchronises a (if a.spad then 1 else if memKind a.pa = .peer then 4 else if memKind a.pa = .host then 5 else 3) y →
      y.Loads h (o + 8) 8 b z cs →
      let n := BitVec.ofNat 64 (ofBytes cs)
      let p := z.cur.pc
      let u := BitVec.ofNat 64 (4 * z.cur.width)
      let last := p + u * BitVec.ofNat 64 e.toNat
      let armed := fun (on : Bool) => z.setCur { z.cur with
        lc := SMap.set 0 z.cur.lc l.toNat n
        loops := SMap.set {} z.cur.loops l.toNat { armed := on, start := p + u, last := last } }
      Runs .loopmFlagWake (.loopm h l f e) s (if n = 0 then s.jumped (armed false) (last + u) else s.passed (armed true))))

/-- For a level that is armed, ends at x and holds c ≠ 0, the k-th end test at x, for each k from 1 to c - 1, leaves pc at start, lc at c - k and the level armed; the c-th leaves lc at 0, the level disarmed, and pc where it stood. -/
def Obligations.LoopRunsItsCount : Prop :=
  ∀ (b : Bank) (n : Nat) (x : BitVec 64) (c : BitVec 64),
    let test := fun (y : Bank) => (y.endTest n x).1
    (SMap.get {} b.loops n).armed = true → (SMap.get {} b.loops n).last = x → SMap.get 0 b.lc n = c → c ≠ 0 →
    (∀ k, 1 ≤ k → k < c.toNat → (Nat.repeat test k b).pc = (SMap.get {} b.loops n).start ∧
      SMap.get 0 (Nat.repeat test k b).lc n = c - BitVec.ofNat 64 k ∧
      (SMap.get {} (Nat.repeat test k b).loops n).armed = true) ∧
    SMap.get 0 (Nat.repeat test c.toNat b).lc n = 0 ∧
    (SMap.get {} (Nat.repeat test c.toNat b).loops n).armed = false ∧
    (Nat.repeat test c.toNat b).pc = (Nat.repeat test (c.toNat - 1) b).pc

/-- When s[a] and s[b] are not awaited, BEQ, BNE, BLT, BGE, BLTU and BGEU complete: if the condition holds pc becomes pc + 4 × sext(off12, 12), otherwise the unit passes to the next word or bundle. No register, no memory and no other bank changes. -/
def Obligations.BranchesCompareAndGo : Prop :=
  ∀ (s : State) (a b : BitVec 6) (o : BitVec 12), s.free [a, b] = true →
    let x := s.reg a
    let y := s.reg b
    let target := bits64 (s.cur.pc.toNat + 4 * o.toInt)
    let goes := fun (i : Instr) (c : Prop) => Answers i s (fun t =>
      OnlyBank s t s.ib ∧ s.cur.SameButScalars (t.bank s.ib) s.now ∧ (∀ r, t.reg r = s.reg r) ∧
      (c → (t.bank s.ib).pc = target ∧ (t.bank s.ib).lc = s.cur.lc ∧ (t.bank s.ib).loops = s.cur.loops) ∧
      (¬ c → t = s.passed s))
    goes (.beq a b o) (x = y) ∧ goes (.bne a b o) (x ≠ y) ∧
    goes (.blt a b o) (x.toInt < y.toInt) ∧ goes (.bge a b o) (y.toInt ≤ x.toInt) ∧
    goes (.bltu a b o) (x.toNat < y.toNat) ∧ goes (.bgeu a b o) (y.toNat ≤ x.toNat)

/-- JMP goes to pc + 4 × sext(off24). JAL also writes s62 := pc + 4 (4w in a gang of width w). JR reads s[a] first: a target that is not a multiple of 4 raises ALIGN precisely with the target; otherwise it writes s[d] := pc + 4 (4w; nothing for d = 0) and goes to the target. -/
def Obligations.JumpsLinkAndGo : Prop :=
  ∀ (s : State),
    let link := s.cur.pc + BitVec.ofNat 64 (4 * s.cur.width)
    (∀ o : BitVec 24, exec (.jmp o) s = .next (s.jumped s (bits64 (s.cur.pc.toNat + 4 * o.toInt)))) ∧
    (∀ o : BitVec 24, s.free [62] = true →
      exec (.jal o) s = .next (s.jumped (s.setReg 62 link) (bits64 (s.cur.pc.toNat + 4 * o.toInt)))) ∧
    (∀ (d a : BitVec 6) (i : BitVec 12), s.free [d, a] = true →
      let target := bits64 ((s.reg a).toNat + i.toInt)
      exec (.jr d a i) s = .next (if target.toNat % 4 ≠ 0 then s.raises s { code := 0x08, info := target }
        else s.jumped (s.setReg d link) target))

/-- After an instruction that changed s to x with the issuing bank and cluster as they were: of the state x only the issuing bank differs, and in it only pc, loop counters, loop state, what it waited for or had left to raise, and the mark of progress. With a taken transfer pc is the target. A write to s[d] reads back, as 0 for d = 0, and every other register is as before. If s[d] or a source of an integer instruction is awaited, the instruction answers a state in which its bank waits at its word: registers, memory, tags, pc, queues and every other bank are as before. -/
def Obligations.PassingJumpingAndWaiting : Prop :=
  (∀ (s x : State) (p : BitVec 64),
    OnlyBank x (s.passed x) s.ib ∧ OnlyBank x (s.jumped x p) s.ib ∧
    (x.bank s.ib).SameButScalars ((s.passed x).bank s.ib) x.now ∧ ((s.passed x).bank s.ib).s = (x.bank s.ib).s ∧
    ((s.passed x).bank s.ib).pc = (x.bank s.ib).advance.pc ∧
    (s.jumped x p).bank s.ib = { x.bank s.ib with pc := p, waits := none, watch := none, page := (x.bank s.ib).donePage, progress := x.now } ∧
    (∀ d r v, (s.setReg d v).reg r = if r = 0 then 0 else if r = d then v else s.reg r) ∧
    (∀ d v, OnlyBank s (s.setReg d v) s.ib ∧ (s.setReg d v).bank s.ib = { s.cur with s := ((s.setReg d v).bank s.ib).s })) ∧
  (∀ (s : State) (i : Instr) (d : BitVec 6) (rs : List (BitVec 6)),
    integerOperands i = some (d, rs) → s.free (d :: rs) = false →
    Answers i s (fun t => (∀ r, t.reg r = s.reg r) ∧ (t.bank s.ib).pc = s.cur.pc ∧ (t.bank s.ib).waits.isSome = true ∧
      (∀ k, k ≠ s.ib → t.bank k = s.bank k) ∧ (∀ a, t.byte a = s.byte a) ∧ (∀ a, t.tagAt a = s.tagAt a) ∧
      t.clusters = s.clusters ∧ t.cores = s.cores))

/-- With the named register free: QPUSH, a release, waits while a posted FLADD, store or packet of its bank, or of a lower member's word of its bundle, is on its way; else on a queue register of fewer than 8 entries it appends s[a], and on one of 8 it waits. QPOP of a non-empty one removes the oldest entry and writes it to s[d]; of an empty one it waits. QPOLL writes the number of entries and removes nothing. A waiting QPUSH or QPOP does the same when QUEUE_REGISTER_WAKE runs it again. No memory changes. -/
def Obligations.QueueRegisters : Prop :=
  ∀ (s : State) (a d : BitVec 6) (q : BitVec 3),
    let es := s.curCore.queueReg q.toNat
    let put := fun (xs : List (BitVec 64)) => s.setCurCore { s.curCore with q := SMap.set [] s.curCore.q q.toNat xs }
    (s.free [a] = true → s.wayClear = false → exec (.qpush a q) s = .next (s.stalled s (.qpush a q) .earlier)) ∧
    (s.free [a] = true → s.wayClear = true → es.length < 8 →
      Runs .queueRegisterWake (.qpush a q) s (s.passed (put (es ++ [s.reg a])))) ∧
    (s.free [a] = true → s.wayClear = true → 8 ≤ es.length → Runs .queueRegisterWake (.qpush a q) s (s.stalled s (.qpush a q))) ∧
    (∀ v rest, s.free [d] = true → es = v :: rest → Runs .queueRegisterWake (.qpop d q) s (s.passed ((put rest).setReg d v))) ∧
    (s.free [d] = true → es = [] → Runs .queueRegisterWake (.qpop d q) s (s.stalled s (.qpop d q))) ∧
    (s.free [d] = true → Answers (.qpoll d q) s (fun t => Wrote s t d (BitVec.ofNat 64 es.length)))

/-- GANG of a forked member or to a larger width raises GANG; to the same width it only passes; to a smaller one every member of the group goes on after the bundle with the new width. FORK of a group whose targets are words sends every member alone to its own s[a]; with a target that is no word's it raises ALIGN with the lowest-numbered member's such target; a forked member executes it as jr s0. JOIN of a unit that issues whole only passes; a member of a split or forked unit waits at the bit where it stands; when all members wait and no bit has them all, GANG is raised on member 0's JOIN. When all members wait at bit K and nothing of theirs is on its way, the unit re-forms at full width after member 0's JOIN, all members at one pc, and a handler that a member still runs returns to the whole group. (That a split makes no end test, and where the fault of a JOIN that cannot re-form stands, are the model's choice: log 17.) -/
def Obligations.GangsSplitForkAndJoin : Prop :=
  (∀ (s : State) (w : BitVec 2), w ≠ 3 →
    exec (.gang w) s = .next (
      if s.cur.forked = true ∨ s.cur.width < 2 ^ w.toNat then
        s.raises s { code := 0x1D, info := wordInfo (.gang w) }
      else if 2 ^ w.toNat = s.cur.width then s.passed s
      else s.forGroup s.ib (s.groupOf s.ib) (fun b =>
        { b with pc := s.cur.pc + BitVec.ofNat 64 (4 * s.cur.width), waits := none, watch := none, page := b.donePage,
                 issueWidth := 2 ^ w.toNat, progress := s.now }))) ∧
  (∀ (s : State) (a : BitVec 6) (u : WorkUnit), s.cur.unit = some u → u.width ≠ 1 → s.cur.forked = false →
    (∀ cl ∈ s.groupOf s.ib, (s.bank (bankOf s.ib cl)).isPending a = false ∧
      ((s.bank (bankOf s.ib cl)).reg a).toNat % 4 = 0) →
    exec (.fork a) s = .next (s.forGroup s.ib (s.groupOf s.ib) (fun b =>
      { b with pc := b.reg a, waits := none, watch := none, page := b.donePage, forked := true, issueWidth := 1, progress := s.now }))) ∧
  (∀ (s : State) (a : BitVec 6) (u : WorkUnit) (cl : Nat) (before after : List Nat), s.cur.unit = some u → u.width ≠ 1 → s.cur.forked = false →
    (∀ k ∈ s.groupOf s.ib, (s.bank (bankOf s.ib k)).isPending a = false) → s.groupOf s.ib = before ++ cl :: after →
    (∀ k ∈ before, ((s.bank (bankOf s.ib k)).reg a).toNat % 4 = 0) → ((s.bank (bankOf s.ib cl)).reg a).toNat % 4 ≠ 0 →
    exec (.fork a) s = .next (s.raises s { code := 0x08, info := (s.bank (bankOf s.ib cl)).reg a })) ∧
  (∀ (s : State) (a : BitVec 6) (u : WorkUnit), s.cur.unit = some u → (u.width = 1 ∨ s.cur.forked = true) →
    s.free [a] = true → exec (.fork a) s = .next (
      if (s.reg a).toNat % 4 = 0 then s.jumped (s.setReg 0 (s.cur.pc + BitVec.ofNat 64 (4 * s.cur.width))) (s.reg a)
      else s.raises s { code := 0x08, info := s.reg a })) ∧
  (∀ (s : State) (g : BitVec 3) (u : WorkUnit), s.cur.unit = some u → s.cur.issueWidth = u.width → s.cur.forked = false →
    exec (.join g) s = .next (s.passed s)) ∧
  (∀ (s : State) (g : BitVec 3) (u : WorkUnit), s.cur.unit = some u →
    (s.cur.issueWidth ≠ u.width ∨ s.cur.forked = true) →
    let t := s.forGroup s.ib (s.groupOf s.ib) (fun b =>
      { b with joined := some g.toNat, joinAt := b.pc, waits := none, page := none })
    let m0 := bankOf s.ib u.base
    (t.joinStuck u s.ib = false → exec (.join g) s = .next t) ∧
    (∀ k : Nat, t.joinStuck u s.ib = true → (t.bank m0).joined = some k →
      exec (.join g) s = .next ((t.setBank m0 { t.bank m0 with joined := none }).takeTrap m0
        { code := 0x1D, info := wordInfo (.join (BitVec.ofNat 3 k)) }))) ∧
  (∀ (s : State) (b g : Nat) (u : WorkUnit), (s.bank b).unit = some u →
    (∀ k ∈ u.banks b, (s.bank k).joined = some g) → (∀ k ∈ u.banks b, s.quietWay k = true) →
    let n := 4 * u.width
    let pc := BitVec.ofNat 64 ((s.bank (bankOf b u.base)).joinAt.toNat / n * n + n)
    exec (.joinReform b g) s = .next (s.forGroup b u.clusters (fun x =>
      { x with pc := pc, waits := none, watch := none, page := x.donePage, joined := none, forked := false, issueWidth := u.width,
               skew := 0, trapGroup := x.trapGroup.map (fun _ => (u.width, false)), progress := s.now })))

/-- An access of n bytes through h at offset o waits while h is translating or PENDING; raises HANDLE_INVALID, or the code of a FAULT handle; then ALIGN, HANDLE_BOUNDS and, for a write without write intent, PERM, each with the virtual address reached as its datum; otherwise it reaches the scratchpad at o for h0, or the page frame plus the offset within the page. LDD and STD end by those checks. h0 is VALID with va 0, limit 5,767,168 and write intent. -/
def Obligations.HandleChecksOfAnAccess : Prop :=
  (∀ (s : State) (h : BitVec 4) (o : BitVec 64) (n : Nat) (w : Bool),
    let x := s.cur.handle h.toNat
    let va := x.va + o
    s.access h o n w =
      if x.state = .translating ∨ x.state = .pending then .error .wait
      else if x.state = .invalid then .error (.trap { code := 0x04, info := va })
      else match x.state with
        | .fault c => .error (.trap { code := c, info := va, page := if c = 0x07 then some h.toNat else none })
        | _ =>
          if va.toNat % n ≠ 0 then .error (.trap { code := 0x08, info := va })
          else if x.limit < o.toNat + n then .error (.trap { code := 0x05, info := va })
          else if w = true ∧ x.wi = false then .error (.trap { code := 0x06, info := va })
          else .ok { spad := decide (h = 0), va := va,
                     pa := if h = 0 then o.toNat else x.frame + x.va.toNat % x.size + o.toNat }) ∧
  (∀ (s : State) (d : BitVec 6) (h : BitVec 4) (o : BitVec 14) (t : Trap), s.free [d] = true →
    let off := BitVec.ofNat 64 (8 * o.toNat)
    (s.access h off 8 false = .error (.trap t) → exec (.ldd d h o) s = .next (s.raises s t)) ∧
    (s.access h off 8 false = .error .wait → exec (.ldd d h o) s = .next (s.stalled s (.ldd d h o) .earlier)) ∧
    (s.access h off 8 true = .error (.trap t) → exec (.std d h o) s = .next (s.raises s t)) ∧
    (s.access h off 8 true = .error .wait → exec (.std d h o) s = .next (s.stalled s (.std d h o) .earlier))) ∧
  (∀ b : Bank, b.handle 0 = { state := .valid, va := 0, limit := 5767168, wi := true, frame := (b.handle 0).frame,
                              size := (b.handle 0).size, perm := (b.handle 0).perm, gen := (b.handle 0).gen })

/-- For LDB, LDBU, LDH, LDHU, LDW, LDWU, LDD and LDX, when the registers named are free and the access meets nothing that stops it: the load completes, s[d] holds the bytes read, extended as the form says (nothing for d = 0), every other register is unchanged, and no byte or tag of memory changes; of the state only the issuing bank, the buckets that the request is charged to with the time it waits at them and, through h0, the core whose scratchpad was read differ. -/
def Obligations.LoadsExtendWhatTheyRead : Prop :=
  ∀ (s x : State) (i : Instr) (d : BitVec 6) (h : BitVec 4) (o : BitVec 64) (n : Nat) (g : Bool) (a : Place) (bs : List Byte),
    loadForm i s = some (d, h, o, n, g) → s.free (accessRegs i) = true → s.Loads h o n a x bs →
    let v := if g then bits64 (sextNat (ofBytes bs) (8 * n)) else BitVec.ofNat 64 (ofBytes bs)
    Answers i s (fun t =>
      t.reg d = (if d = 0 then 0 else v) ∧ (∀ r, r ≠ d → t.reg r = s.reg r) ∧
      s.cur.SameButScalars (t.bank s.ib) t.now ∧ (∀ k, k ≠ s.ib → t.bank k = s.bank k) ∧
      t = { x with banks := t.banks } ∧ x = { s with cores := x.cores, parts := x.parts, now := x.now } ∧ (a.spad = false → x = s.chargeAt a n) ∧
      (∀ p, t.byte p = s.byte p) ∧ (∀ p, t.tagAt p = s.tagAt p))

/-- For STB, STH, STW, STD and STX, when the registers named are free and the access at place a meets nothing that stops it: the store completes. In memory, byte k of the n bytes at a holds byte k of the register, every byte outside reads as before, the tags of the 8-byte words touched are clear and all others as before, but for a 1 MiB region of HBM that the store makes live, whose tags are clear. Registers are unchanged, other banks at most see their monitor hit or their awaited flag word reach its value, and only memory, its metadata, the buckets charged and the time waited at them, lines under scrub and Churn slots over the frames change. Through h0 no memory changes. -/
def Obligations.StoresWriteAndLeaveTheRest : Prop :=
  ∀ (s : State) (i : Instr) (r : BitVec 6) (h : BitVec 4) (o : BitVec 64) (n : Nat) (a : Place),
    storeForm i s = some (h, o, n, r) → s.free (accessRegs i) = true → s.Stores h o n a →
    let outside := fun (p : Nat) => p / 8 < a.pa / 8 ∨ (a.pa + n - 1) / 8 < p / 8
    let woken := fun (p : Nat) => s.liveAt p = false ∧ ∃ k < n, isHbm (a.pa + k) = true ∧ (a.pa + k) / 2 ^ 20 = p / 2 ^ 20
    Answers i s (fun t =>
      t = s.passed ((s.chargeAt a n).writeAt a (toBytes n (s.reg r).toNat)) ∧
      (a.spad = true → t.mem = s.mem ∧ t.tags = s.tags) ∧
      (a.spad = false →
        (∀ k, k < n → t.byte (a.pa + k) = (s.reg r).extractLsb' (8 * k) 8) ∧
        (∀ p, p < a.pa ∨ a.pa + n ≤ p → t.byte p = s.byte p) ∧
        (∀ p, a.pa / 8 ≤ p / 8 ∧ p / 8 ≤ (a.pa + n - 1) / 8 → t.tagAt p = false) ∧
        (∀ p, outside p → woken p → t.tagAt p = false) ∧
        (∀ p, outside p → ¬ woken p → t.tagAt p = s.tagAt p) ∧ t.cores = s.cores) ∧
      (∀ q, t.reg q = s.reg q) ∧
      (∀ k, k ≠ s.ib → t.bank k = { s.bank k with monitor := (t.bank k).monitor, watch := (t.bank k).watch }) ∧
      t.bank s.ib = { s.cur with
        pc := (t.bank s.ib).pc, lc := (t.bank s.ib).lc, loops := (t.bank s.ib).loops,
        waits := none, watch := none, page := s.cur.donePage, progress := t.now, monitor := (t.bank s.ib).monitor } ∧
      t = { s with
        banks := t.banks, cores := t.cores, parts := t.parts, now := t.now, mem := t.mem, tags := t.tags, lineMeta := t.lineMeta,
        liveRegions := t.liveRegions, badSectors := t.badSectors, softSectors := t.softSectors, badMetaBlocks := t.badMetaBlocks,
        written := t.written, scrubs := t.scrubs, churn := t.churn })

/-- After STD of s[r] through h at an offset of memory, an LDD through the same handle and offset that meets nothing reads the value of s[r]. With no bank marked failed, writing a byte at offset t of data bank b makes both syndromes of the codeword at t zero, so that reading the byte gives the value without a correction; and no cell at another offset changes. -/
def Obligations.StoredBytesReadBack : Prop :=
  (∀ (s t x : State) (r d : BitVec 6) (h : BitVec 4) (o : BitVec 14) (a b : Place) (bs : List Byte),
    let off := BitVec.ofNat 64 (8 * o.toNat)
    s.free [r] = true → s.Stores h off 8 a → a.spad = false →
    exec (.std r h o) s = .next t → t.free [d] = true → t.Loads h off 8 b x bs →
    Answers (.ldd d h o) t (fun y => b = a ∧ y.reg d = if d = 0 then 0 else s.reg r)) ∧
  (∀ (c : Core) (b t v : Nat), c.failed = [] → b < 22 → t < bankBytes → v < 256 →
    (c.writeCell b t v).syndromes t [] = (0, 0) ∧
    (c.writeCell b t v).readCell b t = (c.writeCell b t v, some v) ∧
    (∀ k t', t' < bankBytes → t' ≠ t → (c.writeCell b t v).cell k t' = c.cell k t'))

/-- When their registers are free, their access meets nothing that stops it and the synchronising access is performed, LDACQ writes the extended bytes to s[d]. At host memory it is a load and then a FENCE full: while a packet, posted add or late store of the bank, or of a lower member's word of its bundle, is on its way, it waits with what it has loaded, which it writes to s[d] once none is. STREL, with no such posted FLADD, store or packet on its way (nor, at host memory, a late store to host memory), writes the low bytes of its register; while one is, it waits. -/
def Obligations.AcquireLoadsAndReleaseStores : Prop :=
  (∀ (s x y : State) (d : BitVec 6) (h : BitVec 4) (r : BitVec 6) (g : BitVec 1) (c : BitVec 3) (z : BitVec 2) (a : Place) (bs : List Byte),
    let i : Instr := .ldacq d h r g c z
    let value := if g = 1 then bits64 (sextNat (ofBytes bs) (8 * 2 ^ z.toNat)) else BitVec.ofNat 64 (ofBytes bs)
    s.free [d, r] = true →
    (s.gotten i = none → s.Loads h (s.reg r) (2 ^ z.toNat) a x bs →
      (s.fencedHost a = false → x.Synchronises a c y → exec i s = .next (s.passed (y.setReg d value))) ∧
      (s.fencedHost a = true → exec i s = .next (s.stalled (x.setCur { x.cur with
        waits := some { instr := i, since := x.now, cycle := x.fabric, got := some bs } }) i))) ∧
    (s.gotten i = some bs → exec i s = .next (if s.flushing then s.stalled s i else s.passed (s.setReg d value)))) ∧
  (∀ (s y : State) (q : BitVec 6) (h : BitVec 4) (r : BitVec 6) (c : BitVec 3) (z : BitVec 2) (a : Place),
    s.free [q, r] = true → s.Stores h (s.reg r) (2 ^ z.toNat) a →
    (s.fencedHost a = true → exec (.strel q h r c z) s = .next (s.stalled s (.strel q h r c z))) ∧
    (s.fencedHost a = false → s.wayClear = false → exec (.strel q h r c z) s = .next (s.stalled s (.strel q h r c z) .earlier)) ∧
    (s.fencedHost a = false → s.wayClear = true → (s.chargeAt a (2 ^ z.toNat)).Synchronises a c y →
      exec (.strel q h r c z) s = .next (s.passed (y.writeAt a (toBytes (2 ^ z.toNat) (s.reg q).toNat)))))

/-- LDREF writes the word to s[d] when it is tagged with low bits 0 and raises TAG otherwise; a scratchpad tag that its code cannot correct is POISON. STREF of 0 is a store of 0; of a reference to a tagged header of HBM or the tier that is not PRIVATE, or PRIVATE to this core with a destination that is not published, it writes the word and sets its tag; low bits that are not 0 and a word that is no tagged header raise TAG, a reference to host or peer memory PERM, a header PRIVATE to another core PRIVATE_ACCESS, and one PRIVATE to this core with a published destination ESCAPE; where a late store or packet of the bank to the header is on its way, it waits. OBJINIT of a nonzero size at a writable HBM or tier place that is not private to another core or sealed, whose body translates, writes the two header words, tags the first, and enters the privacy record, after the late stores to its lines have been performed; a place of host or peer memory raises PERM and a size of 0 TAG, once the checks of its header have passed; while the Crock of the place has no room for its record, it waits, and an error of that Crock is POISON. (What fills a Crock, and the place of that wait and of the Crock's error among the other checks, are the model's choice: log 51. That a TAG of STREF has the reference value as its datum is the choice of logs 20 and 29.) -/
def Obligations.ReferencesKeepTheirTags : Prop :=
  (∀ (s x : State) (d : BitVec 6) (h : BitVec 4) (o : BitVec 14) (a : Place) (bs : List Byte),
    s.free [d] = true → s.Loads h (BitVec.ofNat 64 (8 * o.toNat)) 8 a x bs →
    let v := BitVec.ofNat 64 (ofBytes bs)
    (∀ y : State, x.TagReads a y true → v.toNat % 16 = 0 → exec (.ldref d h o) s = .next (s.passed (y.setReg d v))) ∧
    (∀ (y : State) (t : Bool), x.TagReads a y t → t = false ∨ v.toNat % 16 ≠ 0 →
      exec (.ldref d h o) s = .next (s.raises y { code := 0x0C, info := a.va })) ∧
    (∀ c : Core, a.spad = true → x.curCore.readTag a.pa = (c, none) →
      exec (.ldref d h o) s = .next (s.raises (x.setCurCore c) { code := 0x19, info := a.va }))) ∧
  (∀ (s : State) (r : BitVec 6) (h : BitVec 4) (o : BitVec 14) (a : Place), s.free [r] = true → s.reg r = 0 →
    s.Stores h (BitVec.ofNat 64 (8 * o.toNat)) 8 a →
    exec (.stref r h o) s = .next (s.passed ((s.chargeAt a 8).writeAt a (toBytes 8 0)))) ∧
  (∀ (s : State) (r : BitVec 6) (h : BitVec 4) (o : BitVec 14), s.free [r] = true → (s.reg r).toNat % 16 ≠ 0 →
    exec (.stref r h o) s = .next (s.raises s { code := 0x0C, info := s.reg r })) ∧
  (∀ (s x y : State) (r : BitVec 6) (h : BitVec 4) (o : BitVec 14) (a : Place) (u : WorkUnit) (g : Page),
    let v := s.reg r
    s.free [r] = true → v ≠ 0 → v.toNat % 16 = 0 → s.Stores h (BitVec.ofNat 64 (8 * o.toNat)) 8 a →
    (a.spad = false → memKind a.pa ≠ .host) → s.cur.unit = some u →
    (s.chargeAt a 8).walk u.part u.asid v { user := decide (s.cur.level = 0) } = (x, .ok g) →
    (x.request u.part (g.at v) 8).fillFault (g.at v) 8 = (y, none) →
    let w := y.peek64 (g.at v)
    let header := y.tagAt (g.at v) = true ∧ w.toNat % 16 = 15
    let mine := bits w 48 8 = y.coreNo
    memKind (g.at v) = .hbm ∨ memKind (g.at v) = .tier → x.wayMeets s.ib (g.at v) 8 = false →
    (header → (bits w 4 2 = 0 → mine ∧ y.published a = false) →
      exec (.stref r h o) s = .next (s.passed (storeNow y a (toBytes 8 v.toNat) true))) ∧
    (¬ header → exec (.stref r h o) s = .next (s.raises y { code := 0x0C, info := v })) ∧
    (header → bits w 4 2 = 0 → ¬ mine → exec (.stref r h o) s = .next (s.raises y { code := 0x0A, info := v })) ∧
    (header → bits w 4 2 = 0 → mine → y.published a = true → exec (.stref r h o) s = .next (s.raises y { code := 0x09, info := a.va }))) ∧
  (∀ (s x : State) (r : BitVec 6) (h : BitVec 4) (o : BitVec 14) (a : Place) (u : WorkUnit) (g : Page),
    let v := s.reg r
    s.free [r] = true → v ≠ 0 → v.toNat % 16 = 0 → s.Stores h (BitVec.ofNat 64 (8 * o.toNat)) 8 a →
    (a.spad = false → memKind a.pa ≠ .host) → s.cur.unit = some u →
    (s.chargeAt a 8).walk u.part u.asid v { user := decide (s.cur.level = 0) } = (x, .ok g) →
    (memKind (g.at v) = .host ∨ memKind (g.at v) = .peer → exec (.stref r h o) s = .next (s.raises x { code := 0x06, info := v })) ∧
    (memKind (g.at v) = .hbm ∨ memKind (g.at v) = .tier → x.wayMeets s.ib (g.at v) 8 = true →
      exec (.stref r h o) s = .next (s.stalled x (.stref r h o) .earlier))) ∧
  (∀ (s : State) (r : BitVec 6) (h : BitVec 4) (o : BitVec 14) (a : Place),
    let v := s.reg r
    let n := bits v 0 32
    let hd := s.cur.handle h.toNat
    let first := min (16 * n) (hd.limit - (a.va - hd.va).toNat)
    let y := s.chargeAt a 16
    s.free [r] = true → s.access h (BitVec.ofNat 64 (16 * o.toNat)) 16 true = .ok a → s.addPending a 16 = false →
    a.spad = false → s.passes a = true →
    s.foreignPrivate (some s.coreNo) a.pa 16 = false → s.sealedAt a.pa 16 = false → y.writeFault a.pa 16 = (y, none) →
    (memKind a.pa = .host ∨ memKind a.pa = .peer → exec (.objinit r h o) s = .next (s.raises y { code := 0x06, info := a.va })) ∧
    (memKind a.pa = .hbm ∨ memKind a.pa = .tier →
      (n = 0 → exec (.objinit r h o) s = .next (s.raises y { code := 0x0C, info := a.va })) ∧
      (n ≠ 0 → y.noRoom y.partNo a.pa = true → exec (.objinit r h o) s = .next (s.stalled s (.objinit r h o))) ∧
      (∀ (x : State) (u : WorkUnit) (lines : List (Nat × Nat)), n ≠ 0 → y.noRoom y.partNo a.pa = false → s.cur.unit = some u →
        y.coverPages u (16 * n / 65536 + 2) (a.va + BitVec.ofNat 64 first) (16 * n - first)
          [(a.pa / 128, (a.pa + first - 1) / 128 - a.pa / 128 + 1)] = (x, .ok lines) →
        x.records.all (fun q => !(q.sealed && lines.any (fun l => q.lines.any (fun m => decide (l.1 < m.1 + m.2 ∧ m.1 < l.1 + l.2))))) = true →
        let word0 := u.part * 2 ^ 56 + x.coreNo * 2 ^ 48 + n * 2 ^ 16 + 15
        (x.crockFails a.pa = true → exec (.objinit r h o) s = .next (s.raises (x.clearCrock a.pa) { code := 0x19, info := a.va })) ∧
        (x.crockFails a.pa = false →
          exec (.objinit r h o) s = .next (s.passed ((((x.flushLate lines).enterPrivate a.pa x.coreNo lines).store
            (cellsAt a.pa (toBytes 8 word0 ++ toBytes 8 (bits v 32 16)))).setTag a.pa true))))))

/-- XLATE of a handle that is not translating makes it translating with va s[a] and its write intent. A walk that ends while the handle is translating is recorded and takes effect when the window ends, no sooner than 32 cycles after the XLATE; a window that ends before the walk leaves the handle PENDING; a walk that ends while it is PENDING makes it VALID, with the page's frame, size, limit, permissions and generation, or FAULT with its code; a REVOKE in between leaves it INVALID. HINFO waits only while the handle is translating and writes the values of R235. HDROP leaves the handle INVALID. (That HDROP and a revocation leave the handle's va as it was is the model's choice: log 15.) -/
def Obligations.HandlesAndTranslation : Prop :=
  (∀ (s : State) (h : BitVec 4) (a : BitVec 6) (w : BitVec 1), s.free [a] = true → h ≠ 0 →
    (s.cur.handle h.toNat).state ≠ .translating →
    exec (.xlate h a w) s = .next (s.passed ({ s with walkNo := s.walkNo + 1 }.setCur (s.cur.setHandle h.toNat
      { state := .translating, va := s.reg a, wi := decide (w = 1), user := decide (s.cur.level = 0), walk := s.walkNo + 1,
        start := s.cycles })))) ∧
  (∀ (s : State) (d : BitVec 6) (h : BitVec 4) (k : BitVec 2), s.free [d] = true →
    let x := s.cur.handle h.toNat
    (x.state = .translating → exec (.hinfo d h k) s = .next (s.stalled s (.hinfo d h k))) ∧
    (x.state ≠ .translating → Answers (.hinfo d h k) s (fun t => Wrote s t d (
      if k = 0 then BitVec.ofNat 64 ((match x.state with | .invalid => 0 | .valid => 1 | .pending => 2 | .translating => 2 | .fault _ => 3)
          + (if x.wi = true ∧ x.state ≠ .invalid then 4 else 0) + (match x.state with | .fault c => 256 * c.toNat | _ => 0))
      else if k = 1 then (if h = 0 then 0 else x.va)
      else if k = 2 then (if x.state = .valid then BitVec.ofNat 64 x.size else 0)
      else if x.state = .valid then BitVec.ofNat 64 x.gen.toNat else 0)))) ∧
  (∀ (s : State) (h : BitVec 4), (s.cur.handle h.toNat).state ≠ .translating →
    exec (.hdrop h) s = .next (s.passed (s.setCur (s.cur.setHandle h.toNat { va := (s.cur.handle h.toNat).va })))) ∧
  (∀ (s x : State) (b h : Nat) (u : WorkUnit) (g : Page), (s.bank b).unit = some u → h ≠ 0 →
    let hd := (s.bank b).handle h
    (hd.state = .translating ∧ hd.result = none) ∨ hd.state = .pending →
    s.walk u.part u.asid hd.va { write := hd.wi, user := hd.user } = (x, .ok g) →
    Answers (.pageWalkComplete b h) s (fun t => ∃ y z, y = x.setAccessed g ∧
      z = { (y.bank b).handle h with frame := g.frame, size := g.size, limit := g.size - ((y.bank b).handle h).va.toNat % g.size,
                                     perm := g.perm, gen := g.gen } ∧
      t = (y.setBank b ((y.bank b).setHandle h (
        if z.state = .translating then { z with result := some .valid }
        else if z.revoked then { va := z.va } else { z with state := .valid, result := none }))).tellCopies b hd.walk (·.walked (.ok g)))) ∧
  (∀ (s x : State) (b h : Nat) (u : WorkUnit) (c : Code), (s.bank b).unit = some u → h ≠ 0 →
    let hd := (s.bank b).handle h
    (hd.state = .translating ∧ hd.result = none) ∨ hd.state = .pending →
    s.walk u.part u.asid hd.va { write := hd.wi, user := hd.user } = (x, .error c) →
    let z := (x.bank b).handle h
    exec (.pageWalkComplete b h) s = .next ((x.setBank b ((x.bank b).setHandle h (
        if z.state = .translating then { z with result := some (.fault c) }
        else if z.revoked then { va := z.va } else { z with state := .fault c, result := none }))).tellCopies b hd.walk (·.walked (.error c)))) ∧
  (∀ (s : State) (b h : Nat), h ≠ 0 → ((s.bank b).handle h).state = .translating →
    let z := (s.bank b).handle h
    exec (.translationWindowEnd b h) s = .next (if s.cycles < z.start + 32 then s
      else (s.setBank b ((s.bank b).setHandle h (match z.result with
        | none => { z with state := .pending }
        | some st => if z.revoked then { va := z.va } else { z with state := st, result := none }))).tellCopies b z.walk (·.windowed)))

/-- STLK writes the number of a valid entry with the key, or all ones. STINS of a slot below 4,096 removes any entry with the key and makes the slot valid with it; STINV makes the slot invalid; a slot of 4,096 or above raises HANDLE_BOUNDS with that value (that the slot value is the datum is the model's choice: log 20). A table in which each key stands at most once keeps that property. -/
def Obligations.TagTableHoldsEachKeyOnce : Prop :=
  (∀ (s : State) (d a : BitVec 6), s.free [d, a] = true →
    Answers (.stlk d a) s (fun t => Wrote s t d (match s.curCore.tagSlot (s.reg a) with
      | some n => BitVec.ofNat 64 n
      | none => 0xFFFFFFFFFFFFFFFF))) ∧
  (∀ (s : State) (a b : BitVec 6), s.free [a, b] = true →
    let c := match s.curCore.tagSlot (s.reg a) with
      | some n => s.curCore.setTagSlot n none
      | none => s.curCore
    exec (.stins a b) s = .next (if 4096 ≤ (s.reg b).toNat then s.raises s { code := 0x05, info := s.reg b }
      else s.passed (s.setCurCore (c.setTagSlot (s.reg b).toNat (some (s.reg a)))))) ∧
  (∀ (s : State) (a : BitVec 6), s.free [a] = true →
    exec (.stinv a) s = .next (if 4096 ≤ (s.reg a).toNat then s.raises s { code := 0x05, info := s.reg a }
      else s.passed (s.setCurCore (s.curCore.setTagSlot (s.reg a).toNat none)))) ∧
  (∀ (s : State) (a b : BitVec 6) (t : State), s.free [a, b] = true → (s.reg b).toNat < 4096 → exec (.stins a b) s = .next t →
    (∀ i j k, SMap.get none s.curCore.tagTable i = some k → SMap.get none s.curCore.tagTable j = some k → i = j) →
    SMap.wf none s.curCore.tagTable = true →
    ∀ i j k, SMap.get none (t.core s.coreNo).tagTable i = some k → SMap.get none (t.core s.coreNo).tagTable j = some k → i = j)

/-- A PKRD or PKWR whose access passes, to HBM or the tier, is charged at fabric ingress and takes the lowest free tag of its cluster, a PKRD marking s[d] pending; without a free tag, before fabric ingress lets it through, and while a FLADD that goes before it or a lower member's packet to its word is on its way, it waits; to the scratchpad, peer or host memory it raises PERM. A reply that may go and meets nothing writes the selected bytes, zero elsewhere, to the register, ends its mark and frees the tag; a write that may go performs the selected bytes and frees the tag; a fault at the home halts the tag, ends the mark of a read and is a deferred trap with the tag (that the object checks are made at the home, and that a halted tag holds up no PKWT, are the model's choice: log 27). PKWT passes when no tag is taken and waits otherwise. -/
def Obligations.PacketsReadAndWriteAtTheHome : Prop :=
  (∀ (s : State) (d : BitVec 6) (h : BitVec 4) (r : BitVec 6) (m : BitVec 8) (a : Place) (tag : Nat),
    s.free [r] = true → (d ≠ 0 → s.packetPending d = false) → s.access h (s.reg r) 8 false = .ok a → s.packetHeld a = false →
    a.spad = false → memKind a.pa ≠ .peer → memKind a.pa ≠ .host → (s.cluster s.focus).freeTag = some tag →
    let c := s.cluster s.focus
    let p : Packet := { write := false, reg := d.toNat, pa := a.pa, va := a.va, mask := m, data := 0, bank := s.ib, seq := c.packetNo,
                        last := s.lastMate s.ib }
    let x := (s.charge s.partNo a.pa p.size).setCluster s.focus { c with packets := SMap.set none c.packets tag (some p), packetNo := c.packetNo + 1 }
    exec (.pkrd d h r m) s = .next (if s.ingressOpen s.partNo a.pa then s.passed (x.setCur (x.cur.markPending d))
      else s.stalled s (.pkrd d h r m) .bucket)) ∧
  (∀ (s : State) (q : BitVec 6) (h : BitVec 4) (r : BitVec 6) (m : BitVec 8) (a : Place) (tag : Nat),
    s.free [q, r] = true → s.access h (s.reg r) 8 true = .ok a → s.packetHeld a = false →
    a.spad = false → memKind a.pa ≠ .peer → memKind a.pa ≠ .host → (s.cluster s.focus).freeTag = some tag →
    let c := s.cluster s.focus
    let p : Packet := { write := true, reg := q.toNat, pa := a.pa, va := a.va, mask := m, data := s.reg q, bank := s.ib, seq := c.packetNo,
                        last := s.lastMate s.ib }
    exec (.pkwr q h r m) s = .next (if s.ingressOpen s.partNo a.pa then
        s.passed ((s.charge s.partNo a.pa p.size).setCluster s.focus
          { c with packets := SMap.set none c.packets tag (some p), packetNo := c.packetNo + 1 })
      else s.stalled s (.pkwr q h r m) .bucket)) ∧
  (∀ (s : State) (d q : BitVec 6) (h : BitVec 4) (r : BitVec 6) (m : BitVec 8) (a : Place), s.packetHeld a = true →
    (s.free [q, r] = true → s.access h (s.reg r) 8 true = .ok a → exec (.pkwr q h r m) s = .next (s.stalled s (.pkwr q h r m) .earlier)) ∧
    (s.free [r] = true → (d ≠ 0 → s.packetPending d = false) → s.access h (s.reg r) 8 false = .ok a →
      exec (.pkrd d h r m) s = .next (s.stalled s (.pkrd d h r m) .earlier))) ∧
  (∀ (s : State) (q : BitVec 6) (h : BitVec 4) (r : BitVec 6) (m : BitVec 8) (a : Place),
    s.free [q, r] = true → s.access h (s.reg r) 8 true = .ok a → s.packetHeld a = false →
    (a.spad = true ∨ memKind a.pa = .peer ∨ memKind a.pa = .host → exec (.pkwr q h r m) s = .next (s.raises s { code := 0x06, info := a.va })) ∧
    (a.spad = false → memKind a.pa ≠ .peer → memKind a.pa ≠ .host → (s.cluster s.focus).freeTag = none →
      exec (.pkwr q h r m) s = .next (s.stalled s (.pkwr q h r m)))) ∧
  (∀ (s : State) (d : BitVec 6) (h : BitVec 4) (r : BitVec 6) (m : BitVec 8) (a : Place),
    s.free [r] = true → (d ≠ 0 → s.packetPending d = false) → s.access h (s.reg r) 8 false = .ok a → s.packetHeld a = false →
    (a.spad = true ∨ memKind a.pa = .peer ∨ memKind a.pa = .host → exec (.pkrd d h r m) s = .next (s.raises s { code := 0x06, info := a.va })) ∧
    (a.spad = false → memKind a.pa ≠ .peer → memKind a.pa ≠ .host → (s.cluster s.focus).freeTag = none →
      exec (.pkrd d h r m) s = .next (s.stalled s (.pkrd d h r m)))) ∧
  (∀ s : State, exec .pkwt s = .next (if (s.cluster s.focus).outstanding = [] then s.passed s else s.stalled s .pkwt)) ∧
  (∀ (s x : State) (cl tag : Nat) (p : Packet), s.packet cl tag = some p → p.write = false →
    (s.cluster cl).packetNext p = true →
    s.objectFault (some (cl / 4)) p.pa 8 false = none → s.readFault p.pa 8 = (x, none) →
    let v := ofBytes ((List.range 8).map (fun k => if p.mask.getLsbD k then x.byte (p.pa + k) else 0))
    let b := x.bank p.bank
    exec (.packetReply cl tag) s = .next ((x.setBank p.bank
      { b with s := (if p.reg = 0 then b.s else SMap.set 0 b.s p.reg (BitVec.ofNat 64 v)), pend := eraseOne p.reg b.pend }).freeTag cl tag)) ∧
  (∀ (s x : State) (cl tag : Nat) (p : Packet), s.packet cl tag = some p → p.write = true →
    (s.cluster cl).packetNext p = true →
    s.objectFault (some (cl / 4)) p.pa 8 true = none → s.writeFault p.pa 8 = (x, none) →
    exec (.packetHomeWrite cl tag) s = .next ((x.store (((List.range 8).filter (fun k => p.mask.getLsbD k)).map
      (fun k => (p.pa + k, p.data.extractLsb' (8 * k) 8)))).freeTag cl tag)) ∧
  (∀ (s : State) (cl tag : Nat) (p : Packet) (c : Code), s.packet cl tag = some p →
    (s.cluster cl).packetNext p = true →
    let y := s.setCluster cl { s.cluster cl with
      packets := SMap.set none (s.cluster cl).packets tag (some { p with failed := true }) }
    let b := y.bank p.bank
    let fails := fun (pend : List Nat) => (y.setBank p.bank { b with progress := y.now, pend := pend }).pendTrap p.bank
      { code := c, deferred := true, ptag := some (BitVec.ofNat 3 tag), info := p.va }
    s.objectFault (some (cl / 4)) p.pa 8 p.write = some c →
    (p.write = true → exec (.packetHomeWrite cl tag) s = .next (fails b.pend)) ∧
    (p.write = false → exec (.packetReply cl tag) s = .next (fails (eraseOne p.reg b.pend))))

/-- With their registers free, their access passing, nothing of their bank on its way before a release and their synchronisation performed, AADD, AAND, AOR, AXOR, AMIN, AMAX and ASWP write the new value of the table over the old one, in the same step, and write the old one, sign-extended, to s[d]. ACAS writes s[d + 1] when the old value equals s[d] in the size of the access; otherwise it writes nothing, and with order release it then synchronises nothing. With something of their bank on its way, those whose order makes them a release wait. -/
def Obligations.AtomicsReadModifyWrite : Prop :=
  (∀ (s x y : State) (d : BitVec 6) (h : BitVec 4) (r : BitVec 6) (z : BitVec 1) (c : BitVec 3) (o : BitVec 2) (a : Place) (bs : List Byte),
    let n := if z = 1 then 8 else 4
    let old := bits64 (sextNat (ofBytes bs) (8 * n))
    let op := s.reg d
    let signed := fun (v : BitVec 64) => sextNat v.toNat (8 * n)
    s.free [d, r] = true → s.Atomically h (s.reg r) n o a x bs → x.Ordered a o c y →
    let writes := fun (i : Instr) (v : BitVec 64) => exec i s = .next (s.passed ((y.writeAt a (toBytes n v.toNat)).setReg d old))
    writes (.aadd d h r z c o) (old + op) ∧ writes (.aand d h r z c o) (old &&& op) ∧ writes (.aor d h r z c o) (old ||| op) ∧
    writes (.axor d h r z c o) (old ^^^ op) ∧ writes (.amin d h r z c o) (if signed op < signed old then op else old) ∧
    writes (.amax d h r z c o) (if signed old < signed op then op else old) ∧ writes (.aswp d h r z c o) op) ∧
  (∀ (s x y : State) (d : BitVec 6) (h : BitVec 4) (r : BitVec 6) (z : BitVec 1) (c : BitVec 3) (o : BitVec 2) (a : Place) (bs : List Byte),
    let n := if z = 1 then 8 else 4
    let old := bits64 (sextNat (ofBytes bs) (8 * n))
    let same := sextNat (s.reg d).toNat (8 * n) = sextNat (ofBytes bs) (8 * n)
    s.free [d, d + 1, r] = true → s.Atomically h (s.reg r) n o a x bs →
    (same → x.Ordered a o c y →
      exec (.acas d h r z c o) s = .next (s.passed ((y.writeAt a (toBytes n (s.reg (d + 1)).toNat)).setReg d old))) ∧
    (¬ same → x.Ordered a (if o = 2 then 0 else o) c y →
      exec (.acas d h r z c o) s = .next (s.passed (y.setReg d old)))) ∧
  (∀ (s : State) (d : BitVec 6) (h : BitVec 4) (r : BitVec 6) (z : BitVec 1) (c : BitVec 3) (o : BitVec 2) (i : Instr),
    s.free [d, d + 1, r] = true → o.getLsbD 1 = true → s.wayClear = false →
    i ∈ ([.aadd d h r z c o, .aand d h r z c o, .aor d h r z c o, .axor d h r z c o, .amin d h r z c o, .amax d h r z c o, .aswp d h r z c o,
      .acas d h r z c o] : List Instr) → exec i s = .next (s.stalled s i .earlier))

/-- After a relaxed AADD or ASWP on memory that completes, the bytes of its word hold the new value, every byte outside reads as before, the tag of the 8-byte word is clear and every tag outside it as before, but for a 1 MiB region of HBM that the write makes live, whose tags are clear, and every register but s[d] is unchanged. -/
def Obligations.AtomicsAreFramed : Prop :=
  ∀ (s x : State) (d : BitVec 6) (h : BitVec 4) (r : BitVec 6) (z : BitVec 1) (c : BitVec 3) (a : Place) (bs : List Byte),
    let n := if z = 1 then 8 else 4
    let old := bits64 (sextNat (ofBytes bs) (8 * n))
    s.free [d, r] = true → s.Atomically h (s.reg r) n 0 a x bs → a.spad = false →
    let framed := fun (i : Instr) (v : BitVec 64) => Answers i s (fun t =>
      (∀ k, k < n → t.byte (a.pa + k) = v.extractLsb' (8 * k) 8) ∧ (∀ p, p < a.pa ∨ a.pa + n ≤ p → t.byte p = s.byte p) ∧
      (∀ p, p / 8 = a.pa / 8 → t.tagAt p = false) ∧ (∀ p, p / 8 ≠ a.pa / 8 → t.tagAt p = if s.liveAt p = false ∧ isHbm a.pa = true ∧ a.pa / 2 ^ 20 = p / 2 ^ 20 then false else s.tagAt p) ∧
      (t.reg d = if d = 0 then 0 else old) ∧ (∀ q, q ≠ d → t.reg q = s.reg q))
    framed (.aadd d h r z c 0) (old + s.reg d) ∧ framed (.aswp d h r z c 0) (s.reg d)

/-- FENCE full, ss and ll pass when every packet tag of the cluster is free and every posted add of the bank has been performed, with what lower members' words of its bundle have sent, and wait otherwise; full and ss also wait until every such store has been performed, those to host memory for full at system scope alone; FENCE engine also waits until every wide operation of the bank has completed. They change no register and no memory. (That full, ss and ll order nothing more is the model's: its loads are performed as they issue, log 26.) -/
def Obligations.FencesWaitForWhatIsOutgoing : Prop :=
  ∀ (s : State) (c : BitVec 3),
    let out := (s.cluster s.focus).outstanding ≠ [] ∨ s.lowerPackets s.ib ≠ [] ∨ s.addsBefore s.ib ≠ []
    let stores := ∃ x ∈ s.latesBefore s.ib, memKind x.pa ≠ .host
    let flush := c.toNat = 5 ∧ s.latesBefore s.ib ≠ []
    let k := s.cluster s.focus
    let busy := k.qL ≠ [] ∨ k.qC ≠ [] ∨ k.qS ≠ []
    (¬ out → ¬ stores → ¬ flush → exec (.fenceFull c) s = .next (s.passed s)) ∧
    (¬ out → ¬ stores → exec (.fenceSs c) s = .next (s.passed s)) ∧
    (¬ out → exec (.fenceLl c) s = .next (s.passed s)) ∧
    (¬ out → ¬ busy → exec (.fenceEngine c) s = .next (s.passed s)) ∧
    (out ∨ stores ∨ flush → exec (.fenceFull c) s = .next (s.stalled s (.fenceFull c))) ∧
    (out ∨ stores → exec (.fenceSs c) s = .next (s.stalled s (.fenceSs c))) ∧
    (out → exec (.fenceLl c) s = .next (s.stalled s (.fenceLl c))) ∧
    (out ∨ busy → exec (.fenceEngine c) s = .next (s.stalled s (.fenceEngine c)))

/-- MONITOR through a readable place of the scratchpad or of memory other than the host's arms the bank's monitor on its line with no write seen; one at a home waits while the Crock there has no room for it and the bank holds none there, and meets that Crock's errors as POISON (what fills a Crock is the model's choice: log 51). MWAIT writes 2 with no monitor armed, 0 once a write has reached the line, 1 when a nonzero s[a] µs have passed since it first issued; each disarms; otherwise it waits. A store to a line hits every monitor on it. A waiting MWAIT of a bank that issues alone ends with 0 when it is woken after a write, and with 1 when its time ends. -/
def Obligations.MonitorAndMwait : Prop :=
  (∀ (s x : State) (h : BitVec 4) (o : BitVec 14) (a : Place) (bs : List Byte),
    s.Loads h (BitVec.ofNat 64 (8 * o.toNat)) 8 a x bs → (a.spad = false → memKind a.pa ≠ .host) →
    (a.spad = false → s.noRoom s.partNo a.pa = true → s.monitorThere a.pa = true) → (a.spad = false → x.crockFails a.pa = false) →
    exec (.monitor h o) s = .next (s.passed (x.setCur { x.cur with
      monitor := some { line := if a.spad then spadLine x.coreNo a.pa else a.pa / 128, hit := false } }))) ∧
  (∀ (s x : State) (h : BitVec 4) (o : BitVec 14) (a : Place) (bs : List Byte),
    s.Loads h (BitVec.ofNat 64 (8 * o.toNat)) 8 a x bs → a.spad = false → memKind a.pa ≠ .host →
    (s.noRoom s.partNo a.pa = true → s.monitorThere a.pa = false → exec (.monitor h o) s = .next (s.stalled s (.monitor h o))) ∧
    (s.noRoom s.partNo a.pa = false → x.crockFails a.pa = true →
      exec (.monitor h o) s = .next (s.raises (x.clearCrock a.pa) { code := 0x19, info := a.va }))) ∧
  (∀ (s : State) (d a : BitVec 6), s.free [d, a] = true →
    let ends := fun (v : BitVec 64) => s.passed (s.setCur { s.cur.setReg d v with monitor := none })
    let late := s.reg a ≠ 0 ∧ (s.reg a).toNat * 1000 ≤ (s.now - s.cur.since (.mwait d a) s.now).toNat
    (s.cur.monitor = none → exec (.mwait d a) s = .next (ends 2)) ∧
    (∀ line, s.cur.monitor = some { line := line, hit := true } → Runs .mwaitWake (.mwait d a) s (ends 0)) ∧
    (∀ line, s.cur.monitor = some { line := line, hit := false } → late → Runs .mwaitTimeout (.mwait d a) s (ends 1)) ∧
    (∀ line, s.cur.monitor = some { line := line, hit := false } → ¬ late →
      Runs .mwaitTimeout (.mwait d a) s (s.stalled s (.mwait d a)))) ∧
  (∀ (s : State) (pa : Nat) (bs : List Byte) (k line : Nat) (hit : Bool), (s.bank k).monitor = some { line := line, hit := hit } →
    ((s.store (cellsAt pa bs)).bank k).monitor =
      some { line := line, hit := hit || (List.range bs.length).any (fun i => (pa + i) / 128 == line) }) ∧
  (∀ (s : State) (b line : Nat) (d a : BitVec 6) (hit : Bool), s.Waiting b (.mwait d a) →
    (s.bank b).monitor = some { line := line, hit := hit } →
    (hit = true → exec (.mwaitTimeout b) s = .next s) ∧ (hit = false → exec (.mwaitWake b) s = .next s))

/-- While no acquiring FLADD of the bank is left to be performed, for a control word at h0 that reads without error and passes the checks: RWFREE with room sets claimed up by one and s[r] to the slot of the old claimed, RPOST of the ticket at tail sets tail up by one, RWFILL with tail ≠ head gives the slot of head, RFREE of the ticket at head sets head up by one; without room, before their turn or with nothing posted they wait, and RPOST and RFREE, releases, wait for what their bank has on its way; a ticket outside its range raises QUEUE, as does a bad control word, and a handle other than h0 raises PERM. A waiting ring instruction does the same when RING_WAIT_WAKE runs it again. -/
def Obligations.RingsHandOutSlotsInOrder : Prop :=
  (∀ (s : State) (r : BitVec 6) (o : BitVec 14) (c : Core) (bs : List Byte), s.free [r] = true → s.acquiring = false →
    s.curCore.spRead (32 * o.toNat) 32 = (c, some bs) →
    let x := s.setCurCore c
    let g := Ring.of bs
    let set := fun (field : Nat) (v : BitVec 32) => x.spStore s.coreNo (cellsAt (32 * o.toNat + field) (toBytes 4 v.toNat))
    let slot := fun (n : BitVec 32) => BitVec.ofNat 64 (n.toNat * 2 ^ 32 + (g.base + n.toNat % g.depth * g.esize))
    let n := (s.reg r).extractLsb' 32 32
    let bad : Trap := { code := 0x11, info := BitVec.ofNat 64 (32 * o.toNat) }
    (g.ok = false → exec (.rwfree r 0 o) s = .next (s.raises x bad) ∧ exec (.rpost r 0 o) s = .next (s.raises x bad) ∧
      exec (.rwfill r 0 o) s = .next (s.raises x bad) ∧ exec (.rfree r 0 o) s = .next (s.raises x bad)) ∧
    (g.ok = true →
      Runs .ringWaitWake (.rwfree r 0 o) s (if (g.claimed - g.head).toNat < g.depth then
          s.passed ((set 24 (g.claimed + 1)).setReg r (slot g.claimed))
        else s.stalled x (.rwfree r 0 o)) ∧
      Runs .ringWaitWake (.rpost r 0 o) s (if (g.claimed - g.tail).toNat ≤ (n - g.tail).toNat then s.raises x bad
        else if g.tail ≠ n then s.stalled x (.rpost r 0 o)
        else if s.wayClear = false then s.stalled x (.rpost r 0 o) .earlier
        else s.passed (set 20 (n + 1))) ∧
      Runs .ringWaitWake (.rwfill r 0 o) s (if g.tail ≠ g.head then s.passed (x.setReg r (slot g.head))
        else s.stalled x (.rwfill r 0 o)) ∧
      Runs .ringWaitWake (.rfree r 0 o) s (if (g.tail - g.head).toNat ≤ (n - g.head).toNat then s.raises x bad
        else if g.head ≠ n then s.stalled x (.rfree r 0 o)
        else if s.wayClear = false then s.stalled x (.rfree r 0 o) .earlier
        else s.passed (set 16 (n + 1))))) ∧
  (∀ (s : State) (r : BitVec 6) (h : BitVec 4) (o : BitVec 14), s.free [r] = true → s.acquiring = false → h ≠ 0 →
    let t := s.raises s { code := 0x06, info := (s.cur.handle h.toNat).va + BitVec.ofNat 64 (32 * o.toNat) }
    exec (.rwfree r h o) s = .next t ∧ exec (.rpost r h o) s = .next t ∧ exec (.rwfill r h o) s = .next t ∧ exec (.rfree r h o) s = .next t)

/-- A FLADD to memory whose checks pass is charged at fabric ingress and posted with its value, scope, order and the scope mode of its issue, and its instruction is done; it waits first while a store or packet of its bank to its word is on its way, or a lower member's add that goes before it, as a release while any is, and then until fabric ingress lets it through. When it is performed at its Crock, meeting nothing, as a synchronising access, its 8-byte word grows by the value modulo 2^64; an uncorrectable error of the Crock, an object check, a fault of its line or a trapped mismatch fails it with a deferred trap. Through h0 the sum is written at once, after an acquiring FLADD of the bank, and as a release after all that the bank has on its way. FLSET writes s[d] to the word, FLWAIT passes when the word is at least s[d], unsigned, or a write since it read the word has left such a value, and waits otherwise; on a core flag FLSET writes bit 0 of s[d], and FLWAIT passes when the flag equals it. An FLSET that is a release has nothing of its bank on its way before it, and waits until then. A waiting FLWAIT does the same when FLWAIT_WAKE runs it again. (That the object checks come again at the Crock as a deferred trap, that a mismatch is deferred there, and that the adds of a bank to different words are performed in one order are the model's choice: log 28.) -/
def Obligations.FlagsSetAddAndWait : Prop :=
  (∀ (s : State) (d : BitVec 6) (h : BitVec 4) (r : BitVec 6) (c : BitVec 3) (o : BitVec 2) (a : Place), s.free [d, r] = true →
    s.access h (s.reg r) 8 true = .ok a → a.spad = false → memKind a.pa ≠ .host →
    s.objectFault (some s.coreNo) a.pa 8 true = none →
    let held := s.wayMeets s.ib a.pa 8 = true ∨ (∃ f ∈ s.lowerAdds s.ib, f.before a 8 = true) ∨
      o.getLsbD 1 = true ∧ (s.storesBefore s.ib ≠ [] ∨ s.packetsBefore s.ib ≠ [] ∨ s.lowerAdds s.ib ≠ [])
    let x := s.charge s.partNo a.pa 8
    (¬ held → s.ingressOpen s.partNo a.pa = true → exec (.fladd d h r c o) s = .next (s.passed (x.setCur { x.cur with
      fladds := x.cur.fladds ++ [{ pa := a.pa, va := a.va, v := s.reg d, scope := c, order := o, mode := (s.part s.partNo).scopeMode,
                                   last := s.lastMate s.ib }] }))) ∧
    (¬ held → s.ingressOpen s.partNo a.pa = false → exec (.fladd d h r c o) s = .next (s.stalled s (.fladd d h r c o) .bucket)) ∧
    (held → exec (.fladd d h r c o) s = .next (s.stalled s (.fladd d h r c o) .earlier))) ∧
  (∀ (s : State) (d : BitVec 6) (r : BitVec 6) (c : BitVec 3) (o : BitVec 2) (a : Place) (k : Core) (bs : List Byte), s.free [d, r] = true →
    s.access 0 (s.reg r) 8 true = .ok a → s.curCore.spRead a.pa 8 = (k, some bs) →
    let held := s.addBefore a 8 = true ∨ o.getLsbD 1 = true ∧ s.wayClear = false
    (¬ held → exec (.fladd d 0 r c o) s = .next (s.passed ((s.setCurCore k).writeAt a (toBytes 8 (ofBytes bs + (s.reg d).toNat))))) ∧
    (held → exec (.fladd d 0 r c o) s = .next (s.stalled s (.fladd d 0 r c o) .earlier))) ∧
  (∀ (s y : State) (b : Nat) (f : PostedAdd) (rest : List PostedAdd), (s.bank b).fladds = f :: rest →
    let x := s.setBank b { s.bank b with fladds := rest }
    let fails := fun (z : State) (k : Code) => exec (.fladdPerform b) s = .next (z.pendTrap b { code := k, deferred := true, info := f.va })
    let fine := x.crockFails f.pa = false ∧ x.objectFault (some (b / 8)) f.pa 8 true = none
    let synced := x.syncAs f.mode (x.partOfBank b) (b / 8) f.scope f.pa
    (x.crockFails f.pa = true → fails (x.clearCrock f.pa) 0x19) ∧
    (∀ k : Code, x.crockFails f.pa = false → x.objectFault (some (b / 8)) f.pa 8 true = some k → fails x k) ∧
    (∀ k : Code, fine → x.writeFault f.pa 8 = (y, some k) → fails y k) ∧
    (fine → x.writeFault f.pa 8 = (x, none) → synced = (y, false) → fails y 0x0E) ∧
    (fine → x.writeFault f.pa 8 = (x, none) → synced = (y, true) →
      exec (.fladdPerform b) s = .next (y.store (cellsAt f.pa (toBytes 8 (y.peek64 f.pa + f.v).toNat))))) ∧
  (∀ (s : State) (d : BitVec 6) (h : BitVec 4) (r : BitVec 6) (c : BitVec 3) (o : BitVec 2), s.free [d, r] = true →
    (∀ (y z : State) (a : Place), (o.getLsbD 1 = true → s.wayClear = true) → s.AtCrock h (s.reg r) 8 true a y → y.Takes a 8 →
      y.Synchronises a c z → exec (.flset d h r c o) s = .next (s.passed (z.writeAt a (toBytes 8 (z.reg d).toNat)))) ∧
    (o.getLsbD 1 = true → s.wayClear = false → exec (.flset d h r c o) s = .next (s.stalled s (.flset d h r c o) .earlier))) ∧
  (∀ (s : State) (d : BitVec 6) (h : BitVec 4) (r : BitVec 6) (c : BitVec 3) (o : BitVec 2) (a : Place),
    s.free [d, r] = true → s.access h (s.reg r) 8 false = .ok a → s.addPending a 8 = false →
    let i : Instr := .flwait d h r c o
    let seen := s.watched i (s.flagWord a) (s.reg d).toNat
    (∀ x y : State, ∀ bs : List Byte, seen = none → s.AtCrock h (s.reg r) 8 false a y → y.Finds a 8 x bs →
      (ofBytes bs < (x.reg d).toNat → Runs .flwaitWake i s (s.stalled (x.setCur { x.cur with
        watch := some { word := x.flagWord a, value := (x.reg d).toNat } }) i)) ∧
      (∀ z : State, (x.reg d).toNat ≤ ofBytes bs → x.Synchronises a c z → Runs .flwaitWake i s (s.passed z))) ∧
    (∀ z : State, seen = some true → s.Synchronises a c z → Runs .flwaitWake i s (s.passed z)) ∧
    (seen = some false → Runs .flwaitWake i s (s.stalled s i))) ∧
  (∀ (s : State) (d k : BitVec 6), s.free [d] = true →
    (s.wayClear = true → exec (.flsetCoreFlag d k) s = .next (s.passed (s.setCurCore { s.curCore with
      flags := SMap.set false s.curCore.flags k.toNat ((s.reg d).getLsbD 0) }))) ∧
    (s.wayClear = false → exec (.flsetCoreFlag d k) s = .next (s.stalled s (.flsetCoreFlag d k) .earlier)) ∧
    Runs .flwaitWake (.flwaitCoreFlag d k) s (if SMap.get false s.curCore.flags k.toNat = (s.reg d).getLsbD 0 then s.passed s
      else s.stalled s (.flwaitCoreFlag d k)))

/-- DRAIN of a flag with a pending drain raises QUEUE; otherwise it clears the flag and leaves a drain of its partition's levels in the mask, with every record enqueued so far, the issuing unit not counting, nor its record where it is queued again. A drain completes when no other waiting record and no other unit of the partition is of a masked level and older; it sets the flag and is gone; before that its step changes nothing. -/
def Obligations.DrainsCountEarlierWork : Prop :=
  (∀ (s : State) (a k : BitVec 6) (u : WorkUnit), s.free [a] = true → s.cur.unit = some u →
    let c := s.curCore
    let x : Drain := { part := u.part, levels := (s.reg a).extractLsb' 0 32, before := (s.part u.part).nextOrder, issuer := u.order }
    exec (.drain a k) s = .next (if (SMap.get none c.drains k.toNat).isSome then
        s.raises s { code := 0x11, info := BitVec.ofNat 64 k.toNat }
      else s.passed (s.setCurCore { c with
        flags := SMap.set false c.flags k.toNat false
        drains := SMap.set none c.drains k.toNat (some x) }))) ∧
  (∀ (s : State) (n k : Nat) (x : Drain), SMap.get none (s.core n).drains k = some x →
    let older := fun (level : Nat) (order : Nat) => x.levels.getLsbD level && decide (order < x.before)
    let waits := (s.part x.part).waiting.any (fun w => w.order != x.issuer && older w.crec.level w.order) ||
      s.banks.any (fun (y : Nat × Bank) => match y.2.unit with
        | some u => u.part == x.part && u.order != x.issuer && older u.crec.level u.order
        | none => false)
    exec (.drainComplete n k) s = .next (if waits then s else s.setCore n { s.core n with
      flags := SMap.set false (s.core n).flags k true, drains := SMap.set none (s.core n).drains k none }))

/-- PUB whose access passes, to the scratchpad or memory other than the host's, waits while a posted FLADD, store or packet of its bank, or of a lower member's word of its bundle, is on its way, and then: with s[d] = 0 it stores 0 untagged as a release; with a reference to a header of HBM or the tier that is not PRIVATE to another core, it walks from it and, when the walk ends, stores the reference with its tag as a release at the scope; low bits that are not 0 raise TAG with the value of s[d]. (That value as the datum, and the walk as one step of the instruction, are the model's choice: logs 20 and 29.) -/
def Obligations.PubPublishesBeforeItStores : Prop :=
  ∀ (s : State) (d : BitVec 6) (h : BitVec 4) (r : BitVec 6) (c : BitVec 3) (a : Place), s.free [d, r] = true →
    s.access h (s.reg r) 8 true = .ok a → s.addPending a 8 = false → s.passes a = true → (a.spad = false → memKind a.pa ≠ .host) →
    let v := s.reg d
    (s.wayClear = false → exec (.pub d h r c) s = .next (s.stalled s (.pub d h r c) .earlier)) ∧
    (s.wayClear = true →
    (∀ y : State, v = 0 →
      let x := (s.setCur { s.cur with walk := none }).chargeAt a 8
      x.Takes a 8 → x.Synchronises a c y → exec (.pub d h r c) s = .next (s.passed (storeNow y a (toBytes 8 0) false))) ∧
    (v.toNat % 16 ≠ 0 → exec (.pub d h r c) s = .next (s.raises s { code := 0x0C, info := v })) ∧
    (∀ (x y z t : State) (u : WorkUnit) (g : Page), v ≠ 0 → v.toNat % 16 = 0 → s.cur.unit = some u →
      s.walk u.part u.asid v { user := decide (s.cur.level = 0) } = (x, .ok g) →
      memKind (g.at v) = .hbm ∨ memKind (g.at v) = .tier → (x.request u.part (g.at v) 8).fillFault (g.at v) 8 = (y, none) →
      let w := y.peek64 (g.at v)
      y.tagAt (g.at v) = true → w.toNat % 16 = 15 → (bits w 4 2 = 0 → bits w 48 8 = y.coreNo) →
      y.cur.unit = some u → y.publish y.ib (y.walker u c .pub) v = (z, none) →
      (z.chargeAt a 8).Takes a 8 → (z.chargeAt a 8).Synchronises a c t →
      exec (.pub d h r c) s = .next (s.passed (storeNow t a (toBytes 8 v.toNat) true))))

/-- The enqueue that ends SPAWN and JDEC: an error of a Crock at an entry it updates is POISON; where the level is full or a Crock has no room for an entry, QUEUE is raised; else the unit is accounted and enqueued with s1 and s2 of spawn_ctl, and next_index grows by one (R154, R387, R413; what fills a Crock is log 51). -/
def Enqueues (i : Instr) (s d : State) (u : WorkUnit) (r : Record) (va : BitVec 64) (undo : State → State) : Prop :=
  let q := d.seeRecord u.part r
  let at' := q.accountsAt u.part r
  (∀ t, at'.find? (fun t => q.crockFails t.1) = some t →
    exec i s = .next (s.raises (undo (q.clearCrock t.1)) { code := 0x19, info := t.2 })) ∧
  ((∀ t ∈ at', q.crockFails t.1 = false) → q.levelFull u.part r.level = true ∨ (∃ t ∈ at', q.noRoom u.part t.1 = true) →
    exec i s = .next (s.raises (undo q) { code := 0x11, info := va })) ∧
  (∀ z : State, (∀ t ∈ at', q.crockFails t.1 = false ∧ q.noRoom u.part t.1 = false) → q.levelFull u.part r.level = false →
    q.account u.part r false = some z →
    let b := z.cur
    exec i s = .next (s.passed ((z.setCur { b with spawnNext := b.spawnNext + 1 }).enqueue u.part r
      (BitVec.ofNat 64 b.spawnNext.toNat) (BitVec.ofNat 64 b.spawnCount.toNat) u.asid)))

/-- SPAWN by member 0 of a unit that issues whole, on an aligned record that reads without fault and passes R41, nothing of its bank on its way: the unit is committed, a frame is published, the unit is accounted and enqueued with s1 and s2 of spawn_ctl, and next_index grows by one. JDEC whose checks pass commits the unit and decrements the join word; a count above 1 leaves only that; at 1 the record's unit is created as by SPAWN, and a record that fails R41 or whose level is full raises QUEUE with the join word at 1 again; a count of 0 raises QUEUE and stays 0. A record of SPAWN that fails R41 raises QUEUE; while something of its bank is on its way a SPAWN or JDEC waits. (What fills a Crock, and that its error at the join word comes before the commit, are the model's choice: logs 51 and 33; that the publication of the frame is one step is that of log 29.) -/
def Obligations.SpawnAndJdecCreateUnits : Prop :=
  (∀ (s x e : State) (h : BitVec 4) (o : BitVec 14) (a : Place) (bs : List Byte) (u : WorkUnit) (tag : Bool),
    let off := BitVec.ofNat 64 (32 * o.toNat)
    s.cur.unit = some u → s.cur.width = u.width → u.member = 0 →
    ((s.cur.handle h.toNat).va + off).toNat % 32 = 0 → s.Loads h off 32 a x bs → x.TagReads { a with pa := a.pa + 8 } e tag →
    let r := Record.ofBytes bs tag
    let c := e.commitUnit u
    (e.recordOk u.part r = false → exec (.spawn h o) s = .next (s.raises e { code := 0x11, info := a.va })) ∧
    (e.recordOk u.part r = true → e.wayClear = false → exec (.spawn h o) s = .next (s.stalled e (.spawn h o) .earlier)) ∧
    (∀ y : State, e.recordOk u.part r = true → e.wayClear = true →
      (r.w1 = 0 ∧ y = c.setCur { c.cur with walk := none } ∨
       r.w1 ≠ 0 ∧ ∃ v, c.cur.unit = some v ∧ c.publish c.ib (c.walker v 3 .spawn) r.w1 = (y, none)) →
      Enqueues (.spawn h o) s y u r a.va id)) ∧
  (∀ (s x : State) (h : BitVec 4) (o : BitVec 14) (a j : Place) (bs : List Byte) (u : WorkUnit),
    let off := BitVec.ofNat 64 (32 * o.toNat)
    s.cur.unit = some u → s.cur.width = u.width → u.member = 0 →
    ((s.cur.handle h.toNat).va + off).toNat % 32 = 0 →
    s.access h (off + 16) 4 true = .ok j → s.addPending j 4 = false → s.passes j = true → s.Loads h off 32 a x bs → a.spad = false →
    memKind a.pa ≠ .host → x.objectFault (some x.coreNo) (a.pa + 16) 4 true = none →
    x.ingressOpen x.partNo (a.pa + 16) = true → x.crockFails (a.pa + 16) = false →
    (x.wayClear = false → exec (.jdec h o) s = .next (s.stalled x (.jdec h o) .earlier)) ∧
    (∀ y z : State, x.wayClear = true →
    let c := (x.charge x.partNo (a.pa + 16) 8).commitUnit u
    c.writeFault (a.pa + 16) 4 = (y, none) → y.Synchronises { a with pa := a.pa + 16 } 3 z →
    let n := z.peek (a.pa + 16) 4
    let set := fun (t : State) (v : Nat) => t.store (cellsAt (a.pa + 16) (toBytes 4 v))
    let w := set z (n - 1)
    (n = 0 → exec (.jdec h o) s = .next (s.raises z { code := 0x11, info := a.va })) ∧
    (1 < n → exec (.jdec h o) s = .next (s.passed w)) ∧
    (n = 1 →
      let r := Record.ofBytes (w.bytes a.pa 32) (w.tagAt (a.pa + 8))
      (w.recordOk u.part r = false ∨ w.levelFull u.part r.level = true →
        exec (.jdec h o) s = .next (s.raises (set w 1) { code := 0x11, info := a.va })) ∧
      (∀ d : State, w.recordOk u.part r = true → w.levelFull u.part r.level = false →
      (r.w1 = 0 ∧ d = w.setCur { w.cur with walk := none } ∨
       r.w1 ≠ 0 ∧ ∃ v, w.cur.unit = some v ∧ w.publish w.ib (w.walker v 3 .jdec) r.w1 = (d, none)) →
      Enqueues (.jdec h o) s d u r a.va (fun t => set t 1)))))

/-- Every member of the unit stops issuing, waits no longer, but for a SEAL that has issued, and stands to end in the way l; nothing else
changes. -/
def Parks (s t : State) (u : WorkUnit) (l : Leaving) : Prop :=
  t = { s with banks := t.banks } ∧ ∀ k, t.bank k = match (s.bank k).unit with
    | some v => if v.id = u.id then { s.bank k with
        ending := some l
        waits := if s.sealing k then (s.bank k).waits else none
        joined := none } else s.bank k
    | none => s.bank k

/-- By member 0 of a unit that issues whole: COMMIT marks every member of an uncommitted unit committed from now on with the budget then in force, and does nothing in a committed one. YIELD of a committed unit, or with no record to give way to, only passes; otherwise, once the entries of the waiting records have been read, the unit is removed and its record queued again with a fresh stamp, at once when its issued operations have run to their join, else it is parked to end so. DONE with engines idle, packets done, adds and stores performed and room in the Crocks for the entries it updates closes the session, removes the unit and retires its record, and waits before that; where the release of an update would mismatch and the mode traps it, SCOPE_MISMATCH is raised instead, and counted. By any other issuer these three, SPAWN, JDEC and CANCEL raise GANG. With s[a] naming an entry of the level, an entry that passes ingress, finds room at its Crock and reads without an error: CANCEL commits the unit, sets bit 1 of the entry's state and reaches the running units that are not committed; CCNT writes the outstanding or the retired count, zero-extended, as an acquire at package scope. An entry without room makes CANCEL wait, and an error of its Crock is POISON. A value that names no entry raises QUEUE with it. (What fills a Crock is the model's choice: log 51; which records a YIELD gives way to is that of log 56, and that a unit stays parked until its operations have joined that of log 19.) -/
def Obligations.UnitsCommitYieldEndAndCancel : Prop :=
  (∀ (s : State) (u : WorkUnit), s.cur.unit = some u →
    (s.cur.width = u.width → u.member = 0 →
      exec .commit s = .next (s.passed (s.commitUnit u)) ∧
      (u.committed = true → exec .yield s = .next (s.passed s)) ∧
      (let y := s.seeWaiting u.part
      u.committed = false →
        (y.yieldTo u s.ib = false → exec .yield s = .next (s.passed y)) ∧
        (y.yieldTo u s.ib = true → y.cur.ending = none → y.cur.unit = some u →
          (y.joined s.ib u = true → exec .yield s = .next ((y.removeUnit s.ib).requeue u true)) ∧
          (y.joined s.ib u = false → Answers .yield s (fun t => Parks y t u .yielded)))) ∧
      (∀ va, s.unitQuiet u s.ib = true → s.retireStalls u.part u.crec = false →
        s.retireMismatch u.part u.crec s.coreNo = some va →
        exec .unitDone s = .next (s.raises (s.countMismatch 2 u.part) { code := 0x0E, info := va })) ∧
      (s.unitQuiet u s.ib = true → s.retireStalls u.part u.crec = false → s.retireMismatch u.part u.crec s.coreNo = none →
        exec .unitDone s = .next (((s.closeSession s.ib).removeUnit s.ib).retireRecord u.part u.crec s.coreNo)) ∧
      (s.unitQuiet u s.ib = false ∨ s.retireStalls u.part u.crec = true → exec .unitDone s = .next (s.stalled s .unitDone))) ∧
    (∀ (h : BitVec 4) (o : BitVec 14) (a : BitVec 6) (l : BitVec 3) (i : Instr), s.cur.width ≠ u.width ∨ u.member ≠ 0 →
      i = .commit ∨ i = .yield ∨ i = .unitDone ∨ i = .spawn h o ∨ i = .jdec h o ∨ i = .cancel a l ∧ s.free [a] = true →
      exec i s = .next (s.raises s { code := 0x1D, info := wordInfo i })) ∧
    (u.committed = true → s.commitUnit u = s) ∧
    (u.committed = false → ∀ (k : Nat) (v : WorkUnit), (s.bank k).unit = some v → v.id = u.id →
      ((s.commitUnit u).bank k).unit = some { v with
        committed := true
        cancelled := false
        victim := v.victim && !u.victim
        victimFor := if u.victim then 0 else v.victimFor
        commitTime := s.now
        spent := 0
        budget := (s.part u.part).commitBudget.toNat })) ∧
  (∀ (s : State) (u : WorkUnit) (a d : BitVec 6) (l : BitVec 3) (r : BitVec 1), s.cur.unit = some u →
    (∀ (j : Job) (slot id : Nat) (level : WorkLevel), s.free [a] = true → s.cur.width = u.width → u.member = 0 →
      s.namedEntry u l (s.reg a) = some (j, slot, level, id) →
      let e := s.entryPa u.part j level id
      (∀ pa, e.2 = some pa → e.1.ingressOpen u.part pa = true →
        (e.1.noRoom u.part pa = true → exec (.cancel a l) s = .next (s.stalled e.1 (.cancel a l))) ∧
        (e.1.noRoom u.part pa = false → e.1.crockFails pa = true →
          exec (.cancel a l) s = .next (s.raises (e.1.clearCrock pa) { code := 0x19, info := j.entryVa level id }))) ∧
      ((∀ pa, e.2 = some pa → e.1.ingressOpen u.part pa = true ∧ e.1.noRoom u.part pa = false ∧ e.1.crockFails pa = false ∧
          e.1.fillFault pa 16 = (e.1, none)) →
        let c := (e.1.commitUnit u).seeCounter u.part j level id
        exec (.cancel a l) s = .next (s.passed ((c.1.setCounter u.part j level id { c.2 with state := c.2.state ||| 2 }).spreadCancel)))) ∧
    (s.free [a] = true → s.cur.width = u.width → u.member = 0 → s.namedEntry u l (s.reg a) = none →
      exec (.cancel a l) s = .next (s.raises s { code := 0x11, info := s.reg a })) ∧
    (∀ (j : Job) (slot id pa : Nat) (level : WorkLevel) (y : State), s.free [d, a] = true →
      s.namedEntry u l (s.reg a) = some (j, slot, level, id) → s.entryPa u.part j level id = (s, some pa) →
      s.ingressOpen u.part pa = true → s.noRoom u.part pa = false → s.crockFails pa = false → s.fillFault pa 16 = (s, none) →
      s.behind pa = true → s.fillFault pa 11 = (s, none) →
      (s.charge u.part pa 8).Synchronises { spad := false, pa := pa, va := j.entryVa level id } 3 y →
      exec (.ccnt d a r l) s = .next (s.passed (y.setReg d (if r = 1 then BitVec.ofNat 64 (s.peek (pa + 4) 4 % 2 ^ 32)
        else BitVec.ofNat 64 (s.peek pa 4 % 2 ^ 32))))) ∧
    (s.free [d, a] = true → s.namedEntry u l (s.reg a) = none →
      exec (.ccnt d a r l) s = .next (s.raises s { code := 0x11, info := s.reg a })))

/-- Retiring an entry lowers outstanding and raises retired by one, as a release at package scope by the core that retires, which is counted where it mismatches unless the mode is 0; while outstanding stays above 0 nothing else happens; at 0 the open bit clears and the launch's graph, the graph's phase, the phase's job retires next, and at the job the job completes: its slot is free, and its outstanding page requests are gone. (Which core retires a record that no unit runs, and that an update which mismatches is made in every mode, are the model's choice: log 24.) -/
def Obligations.RetirementCascades : Prop :=
  (∀ (s : State) (p jn id core n : Nat) (j : Job) (l : WorkLevel),
    let y := (s.seeCounter p j l id).1
    let c := (s.seeCounter p j l id).2
    let out := c.outstanding - 1
    let x := fun (st : BitVec 8) => y.setCounter p j l id { c with outstanding := out, retired := c.retired + 1, state := st } (some core)
    (out ≠ 0 → s.retireEntry p jn j core (n + 1) l id = x c.state) ∧
    (out = 0 → l = .launch → s.retireEntry p jn j core (n + 1) l id = (x (c.state &&& 0xFE)).retireEntry p jn j core n .graph c.parent.toNat) ∧
    (out = 0 → l = .graph → s.retireEntry p jn j core (n + 1) l id = (x (c.state &&& 0xFE)).retireEntry p jn j core n .phase (c.parent.toNat % 256)) ∧
    (out = 0 → l = .phase → s.retireEntry p jn j core (n + 1) l id = (x (c.state &&& 0xFE)).retireEntry p jn j core n .job 0) ∧
    (out = 0 → l = .job → s.retireEntry p jn j core (n + 1) l id = (x (c.state &&& 0xFE)).completeJob p jn j)) ∧
  (∀ (s e : State) (p id core pa : Nat) (j : Job) (l : WorkLevel) (c : Counter), s.entryPa p j l id = (e, some pa) →
    let t := (e.charge p pa 8).agentStore pa (toBytes 4 c.outstanding.toNat ++ toBytes 4 c.retired.toNat
      ++ toBytes 2 c.parent.toNat ++ toBytes 1 c.state.toNat)
    let counted := core ≠ agentCore ∧ t.mismatches (t.domainIndex, core) 3 pa = true ∧ (t.part p).scopeMode ≠ 0
    let z := if counted then t.setPart p { t.part p with scopeCount := satInc (t.part p).scopeCount } else t
    s.setCounter p j l id c (some core) = if t.privateLine (pa / 128) = true then t
      else { z with scopes := SMap.set none t.scopes (pa / 128) (some { scope := 3, device := t.domainIndex, core := core }) }) ∧
  (∀ (s : State) (p jn : Nat) (j : Job), (s.completeJob p jn j).job p jn = none ∧
    ∀ q ∈ ((s.completeJob p jn j).part p).requests, q.job ≠ jn) ∧
  (∀ (s : State) (p core : Nat) (r : Record) (j : Job), s.job p r.job = some j →
    s.retireRecord p r core = s.retireEntry p r.job j core 4 .launch r.launch)

/-- On a present core of a live partition whose island is not moving, with no reservation held, no bank A suspended and one waiting record of width 1 that is not cancelled, not blocked by affinity, not reserved and fits: after PLACE no record waits, the unit runs in bank A of the lowest free cluster, at level 0 and at the record's code address, with s1, s2, member and width in s1-s4, the frame in s63 and every other register 0, and sched_pops has grown by one. With nothing waiting PLACE changes nothing. A discard of an uncommitted victim removes the unit, queues its record again with its stamp and headmark, and counts in sched_preempts; of an uncommitted cancelled unit it removes the unit and retires its record; while issued operations have not run to their join, both park the unit to end so; both do nothing to other units. When a committed unit's next whole budget has passed outside page waits, COMMIT_BUDGET becomes pending, in the member that runs a handler or else in member 0 (which member is the model's choice: log 17), with k × budget, and the next is awaited. A bank that has been stalled, in a wait that counts, held by a group-mate's handler or at the fence of a DONE, for the partition's stall ticks gets WATCHDOG pending; time in a wait that is no stall does not count. A pending trap is taken from the active bank that is neither held nor paused nor ending; the tag that the trap's packet still held is free then. (That a failed packet's tag stays taken until then is the model's choice: log 27; that a unit stays parked until its operations have joined is that of log 19.) -/
def Obligations.PlacementDiscardsAndTimers : Prop :=
  ((∀ (s : State) (core p g : Nat) (w : Waiting), s.partOfCore core = some p → s.coreIn p core = true →
    (s.core core).reserved = none → (∀ k, k < 4 → (s.cluster (4 * core + k)).activeB = false) →
    (s.part p).waiting = [w] → (s.seeRecord p w.crec).recordCancelled p w.crec = false → s.affinityBlocks p w core = false → w.reserved = none →
    w.crec.width = 1 → s.freeGroup core 1 = some g →
    Answers (.place core) s (fun t =>
      (t.part p).waiting = [] ∧ (t.part p).schedPops = (s.part p).schedPops + 1 ∧
      let b := t.bank (2 * (4 * core + g))
      b.pc = w.crec.code ∧ b.level = 0 ∧ b.issueWidth = 1 ∧ b.pend = [] ∧ b.traps = [] ∧
      b.reg 1 = w.s1 ∧ b.reg 2 = w.s2 ∧ b.reg 3 = 0 ∧ b.reg 4 = 1 ∧ b.reg 63 = w.crec.w1 ∧
      (∀ r : BitVec 6, r ∉ ([1, 2, 3, 4, 63] : List (BitVec 6)) → b.reg r = 0) ∧
      (∃ u, b.unit = some u ∧ u.part = p ∧ u.crec = w.crec ∧ u.asid = w.asid ∧ u.committed = w.crec.commitAtStart ∧ u.startTime = s.now) ∧
      (∀ k, k ≠ 2 * (4 * core + g) → t.bank k = s.bank k))) ∧
  (∀ (s : State) (core p : Nat), s.partOfCore core = some p → (s.part p).waiting = [] → (s.core core).reserved = none →
    exec (.place core) s = .next s)) ∧
  ((∀ (s : State) (b : Nat) (u : WorkUnit), (s.bank b).unit = some u → u.committed = false → (s.bank b).ending = none →
    (s.joined b u = false →
      (u.victim = true → Answers (.victimDiscard b) s (fun t => Parks s t u .victim)) ∧
      (u.cancelled = true → Answers (.cancelDiscard b) s (fun t => Parks s t u .cancelled))) ∧
    (u.victim = true → s.joined b u = true →
      let x := s.removeUnit b
      let y := x.part u.part
      let w : Waiting := { crec := u.crec, s1 := u.s1, s2 := u.s2, asid := u.asid, enqTime := u.enqTime, order := u.order, headmark := true }
      Answers (.victimDiscard b) s (fun t => t.part u.part = { y with waiting := y.waiting ++ [w], schedPreempts := y.schedPreempts + 1 } ∧
        t = { x with parts := t.parts })) ∧
    (u.cancelled = true → s.joined b u = true → exec (.cancelDiscard b) s = .next ((s.removeUnit b).retireRecord u.part u.crec (b / 8))) ∧
    (u.victim = false → exec (.victimDiscard b) s = .next s) ∧ (u.cancelled = false → exec (.cancelDiscard b) s = .next s)) ∧
  (∀ (s : State) (b : Nat) (u : WorkUnit), (s.bank b).unit = some u → u.member = 0 → u.committed = true → u.budget ≠ 0 →
    s.waitsForPage b = false →
    let due := (u.spent + 1) * u.budget
    let x := { s with banks := updUnit u.id (fun v => { v with spent := v.spent + 1 }) s.banks }
    let k := match (u.clusters.map (bankOf b)).find? (fun j => (x.bank j).trapGroup.isSome) with | some j => j | none => b
    exec (.commitBudget b) s = .next (if due * 1000 ≤ (s.now - u.commitTime).toNat then
        x.setBank k { x.bank k with
          traps := (x.bank k).traps ++ [{ code := 0x1C, deferred := true, info := BitVec.ofNat 64 due, time := s.now }] }
      else s)) ∧
  (∀ (s : State) (b : Nat), (∀ w : Waits, (s.bank b).waits = some w → s.stallCounts b = !w.noStall) ∧
    ((s.bank b).waits = none → (s.bank b).held = true ∨ (s.bank b).ending = some .done → s.stallCounts b = true) ∧
    (s.waitsFreely b = true → (s.pass.bank b).progress = s.pass.now)) ∧
  (∀ (s : State) (b : Nat) (u : WorkUnit), (s.bank b).unit = some u → s.stallCounts b = true →
    s.activeBank (b / 2) = b → s.waitsForPage b = false →
    let ticks := (s.now - (s.bank b).progress).toNat / 1000
    let stall := (s.part u.part).stall.toNat
    exec (.watchdog b) s = .next (if stall ≠ 0 ∧ stall ≤ ticks then
        let x := s.setBank b { s.bank b with progress := s.now }
        x.setBank b { x.bank b with traps := (x.bank b).traps ++ [{ code := 0x20, deferred := true, info := BitVec.ofNat 64 ticks, time := s.now }] }
      else s)) ∧
  (∀ (s : State) (b : Nat) (t : Trap), s.activeBank (b / 2) = b → (s.bank b).held = false → (s.bank b).ending = none → s.paused b = false →
    (s.bank b).nextTrap = some t →
    let x := s.setBank b { s.bank b with traps := eraseTrap t (s.bank b).traps }
    (t.ptag = none → exec (.takePendingTrap b) s = .next (x.takeTrap b t)) ∧
    (∀ (n : BitVec 3) (p : Packet), t.ptag = some n → SMap.get none (x.cluster (b / 2)).packets n.toNat = some p → p.failed = true → p.bank = b →
      exec (.takePendingTrap b) s = .next ((x.setCluster (b / 2) { x.cluster (b / 2) with
        packets := SMap.set none (x.cluster (b / 2)).packets n.toNat none }).takeTrap b t))))

/-- At or above the level of the register, and when no wide operation holds it up, CRR writes the register's value to s[d] and CRW makes the register's write with s[a]. Below that level, 2 for 0x800 and up and 1 for 0x300-0x3FF among others, both raise PRIV with the word and change nothing themselves. -/
def Obligations.ControlRegistersNeedTheirLevel : Prop :=
  ∀ (s : State) (d : BitVec 6) (n : BitVec 12), s.free [d] = true →
    let level : Nat := if 0x800 ≤ n.toNat then 2
      else if (0x002 ≤ n.toNat ∧ n.toNat ≤ 0x004) ∨ n.toNat = 0x115 ∨ (0x260 ≤ n.toNat ∧ n.toNat ≤ 0x263) ∨
        (0x300 ≤ n.toNat ∧ n.toNat ≤ 0x3FF) then 1 else 0
    let c := s.cluster s.focus
    let idle := c.qL = [] ∧ c.qC = [] ∧ c.qS = []
    (s.cur.level.toNat < level →
      exec (.crr d n) s = .next (s.raises s { code := 0x02, info := BitVec.ofNat 64 (0xBC000000 + d.toNat * 2 ^ 18 + n.toNat) }) ∧
      exec (.crw d n) s = .next (s.raises s { code := 0x02, info := BitVec.ofNat 64 (0xBD000000 + d.toNat * 2 ^ 12 + n.toNat) })) ∧
    (level ≤ s.cur.level.toNat → (n.toNat = 0x00C ∨ n.toNat = 0x241 → idle) →
      Answers (.crr d n) s (fun t => Wrote s t d (s.crValue n.toNat))) ∧
    (level ≤ s.cur.level.toNat →
      ((n.toNat = 0x00C ∨ n.toNat = 0x241 ∨ (0x110 ≤ n.toNat ∧ n.toNat ≤ 0x115) ∨ (0x120 ≤ n.toNat ∧ n.toNat ≤ 0x135)) → idle) →
      (0x100 ≤ n.toNat → n.toNat < 0x110 → s.tileBusy (n.toNat - 0x100) = false) →
      exec (.crw d n) s = .next (s.passed (s.crSet n.toNat (s.reg d)))) ∧
    ((n.toNat = 0x00C ∨ n.toNat = 0x241) → ¬ idle → exec (.crr d n) s = .next (s.stalled s (.crr d n)))

/-- Writing one of the registers with fields to write gives, when it is read, the written bits in its fields and 0 in its reserved bits; a write of a read-only register changes nothing. cause, trap_pc, trap_info, wseq, wdone, timebase, fpflags, lc0, lc1, spawn_ctl and handler read as the state they name. -/
def Obligations.ControlRegistersReadBack : Prop :=
  (∀ (s : State) (v : BitVec 64) (x : Nat × BitVec 64),
    x ∈ ([(0x002, 0xFFFFFFFFFFFFFFFF), (0x003, 0xFFFFFFFFFFFFFFFF), (0x004, 0xFFFFFFFFFFFFFFFF), (0x00C, 0x3F), (0x00D, 0xFFFFFFFFFFFFFFFF),
      (0x00E, 0xFFFFFFFFFFFFFFFF), (0x011, 0xFFFFFFFFFFFFFFFF), (0x100, 0xF7FFFF), (0x10F, 0xF7FFFF), (0x120, 0xF7), (0x135, 0xF7),
      (0x200, 0xFFFFFFFF), (0x201, 0xFFFFFFFF), (0x202, 0xFFFFFFFF), (0x203, 0x1FF), (0x204, 0x1FFF), (0x205, 0xF), (0x206, 0xFF),
      (0x207, 1), (0x240, 0xF), (0x260, 3), (0x261, 0xFFFFFFFF), (0x262, 1), (0x263, 0xFFFFFFFFFFFFFFFF), (0x300, 0xFFFFFF),
      (0x301, 0x1F), (0x302, 0xFFFFF), (0x303, 0x1F), (0x304, 0xFFFFFFFF), (0x314, 1), (0x320, 0xFFFFFFFFFFFFFFFF)] : List (Nat × BitVec 64)) →
    (s.crSet x.1 v).crValue x.1 = v &&& x.2) ∧
  (∀ (s : State) (v : BitVec 64) (n : Nat),
    n ∈ ([0x000, 0x001, 0x005, 0x006, 0x007, 0x008, 0x009, 0x00B, 0x00F, 0x010, 0x111, 0x112, 0x113, 0x114, 0x241, 0x264, 0x305, 0x306,
      0x307, 0x310, 0x311, 0x312, 0x313, 0x319, 0x321, 0x400, 0x41A, 0x4FF] : List Nat) → s.crSet n v = s) ∧
  (∀ s : State, s.crValue 0x002 = s.cur.cause ∧ s.crValue 0x003 = s.cur.trapPc ∧ s.crValue 0x004 = s.cur.trapInfo ∧
    s.crValue 0x007 = BitVec.ofNat 64 s.cur.seq.toNat ∧ s.crValue 0x008 = BitVec.ofNat 64 s.cur.wdone.toNat ∧ s.crValue 0x00B = s.now ∧
    s.crValue 0x00C = BitVec.ofNat 64 s.cur.fpflags.toNat ∧
    s.crValue 0x011 = BitVec.ofNat 64 (s.cur.spawnNext.toNat * 2 ^ 32 + s.cur.spawnCount.toNat) ∧
    s.crValue 0x00D = SMap.get 0 s.cur.lc 0 ∧ s.crValue 0x00E = SMap.get 0 s.cur.lc 1 ∧
    s.crValue 0x320 = (s.part s.partNo).handler)

/-- At level 0 of a unit that is neither a victim nor cancelled nor ending, with the partition's handler enabled and not logging, a fault that is no page fault of a handle is delivered: cause holds seq, tcode, prev_level, ptag, member, queue, deferred and code with flush 0; trap_pc is pc (with the bits [1:0] that ERET found, where nothing has been fetched since), or the following issue unit for TRAP; trap_info is the datum; the level becomes 1 and pc the handler's entry. Scalar registers and memory are unchanged, and of the unit's group only this member runs. -/
def Obligations.TrapDelivery : Prop :=
  ∀ (s : State) (b : Nat) (t : Trap) (u : WorkUnit), (s.bank b).unit = some u → u.victim = false → u.cancelled = false →
    (s.bank b).ending = none → (s.bank b).level = 0 → (s.part u.part).handler.getLsbD 0 = true → (s.part u.part).handler.getLsbD 1 = false →
    (t.page = none ∨ t.code ≠ 0x07) →
    let k := s.bank b
    let x := s.takeTrap b t
    let y := x.bank b
    bits y.cause 32 32 = t.seq.toNat ∧ bits y.cause 20 12 = t.tcode.toNat ∧ bits y.cause 18 2 = 0 ∧
    bits y.cause 15 3 = (match t.ptag with | some p => p.toNat | none => 0) ∧ y.cause.getLsbD 14 = t.ptag.isSome ∧
    bits y.cause 12 2 = u.member % 4 ∧ y.cause.getLsbD 11 = false ∧ bits y.cause 9 2 = t.queue.toNat ∧
    y.cause.getLsbD 8 = t.deferred ∧ bits y.cause 0 8 = t.code.toNat ∧
    y.trapPc = (if t.deferred then k.pc ||| BitVec.ofNat 64 k.skew.toNat else if t.code = 0x03 then k.pc + BitVec.ofNat 64 (4 * k.width) else k.pc) ∧
    y.trapGroup = some (k.issueWidth, k.forked) ∧ y.issueWidth = 1 ∧ y.skew = 0 ∧
    y.trapInfo = t.info ∧ y.level = 1 ∧ y.pc = BitVec.ofNat 64 ((s.part u.part).handler.toNat / 4 * 4) ∧
    (∀ r, y.reg r = k.reg r) ∧ y.v = k.v ∧ y.p = k.p ∧ y.h = k.h ∧ y.n = k.n ∧ y.w = k.w ∧ y.lc = k.lc ∧ y.tmpl = k.tmpl ∧
    x.mem = s.mem ∧ x.tags = s.tags ∧ x.cores = s.cores ∧ x.clusters = s.clusters ∧ x.parts = s.parts ∧
    (∀ j v, j ≠ b → (s.bank j).unit = some v → v.id = u.id → (s.groupOf b).contains (j / 2) = true → (x.bank j).held = true)

/-- A TRAP of 0x000-0xEFF raises TRAP with datum 0 and tcode set to the code, at every level. A code from 0xF00 on raises PRIV at level 0; at level 1 or above 0xFF1 answers the page request that s1 names and leaves 0 in s1, 0xFF0 runs the harvest command of s1, when its asid is the partition's, no command runs and no access it waits for is on its way, and leaves the register's value in s1 (for another asid it leaves an open value), and every other code leaves all ones in s1. A service goes on at the following issue unit without an end test. (The open value for an asid of another partition is log 10's; that the service begins only when those accesses are done, and then acts in one step, is the model's choice: logs 20 and 32.) -/
def Obligations.TrapCodesAndServices : Prop :=
  ∀ (s : State) (c : BitVec 12),
    (c.toNat < 0xF00 → exec (.trap c) s = .next (s.raises s { code := 0x03, info := 0, tcode := c })) ∧
    (0xF00 ≤ c.toNat → s.cur.level = 0 →
      exec (.trap c) s = .next (s.raises s { code := 0x02, info := BitVec.ofNat 64 (0xBE000000 + c.toNat) })) ∧
    (s.cur.level = 0 →
      exec .trapHarvestService s = .next (s.raises s { code := 0x02, info := 0xBE000FF0 }) ∧
      exec .trapPageAnswerService s = .next (s.raises s { code := 0x02, info := 0xBE000FF1 })) ∧
    (1 ≤ s.cur.level.toNat → s.free [1] = true →
      let next := s.cur.pc + BitVec.ofNat 64 (4 * s.cur.width)
      (0xF00 ≤ c.toNat → c ≠ 0xFF0 → c ≠ 0xFF1 → exec (.trap c) s = .next (s.jumped (s.setReg 1 0xFFFFFFFFFFFFFFFF) next)) ∧
      exec .trapPageAnswerService s = .next (s.jumped ((s.pageAnswer s.partNo (s.reg 1)).setReg 1 0) next) ∧
      (∀ y : State, s.asidValid s.partNo (harvestAsid (s.reg 1)) = (y, true) → y.mgmt.harvest.getLsbD 0 = false →
        y.accessesRun y.partNo (harvestAsid (s.reg 1)) = false →
        let x := (y.startHarvest y.partNo (s.reg 1)).endHarvest
        exec .trapHarvestService s = .next (s.jumped (x.setReg 1 x.mgmt.harvest) next)) ∧
      (∀ y : State, s.asidValid s.partNo (harvestAsid (s.reg 1)) = (y, false) →
        exec .trapHarvestService s = .next (s.jumped (({ y with freeNo := y.freeNo + 1 } : State).setReg 1 (Config.harvestRefused y.freeNo)) next)))

/-- At level 0 ERET raises PRIV, and with no trap in force ILLEGAL. Otherwise the level becomes prev_level and cause 0, and the group that took the trap issues together again at trap_pc, whose bits [1:0] its first fetch finds; scalar registers, memory and the saved trap_pc and trap_info are unchanged, queues whose operations have no trap left to take are released, the group's members hold no longer, a closed session with nothing left ends its lease, and with flush set only operations that have started stay queued and the token counters are 0. (That a queue stays halted while one of its operations still has a trap to take is the model's choice: log 18.) -/
def Obligations.ReturnFromTheHandler : Prop :=
  ∀ s : State,
    (s.cur.level = 0 → exec .eret s = .next (s.raises s { code := 0x02, info := 0xBF000000 })) ∧
    (1 ≤ s.cur.level.toNat → bits s.cur.cause 0 8 = 0 → exec .eret s = .next (s.raises s { code := 0x01, info := 0xBF000000 })) ∧
    (∀ u, 1 ≤ s.cur.level.toNat → bits s.cur.cause 0 8 ≠ 0 → s.cur.unit = some u → s.focus = u.base + u.member →
      let k := s.cur
      let g := k.trapGroup.getD (k.issueWidth, k.forked)
      0 < g.1 → Answers .eret s (fun t =>
        let y := t.bank s.ib
        let bare := fun (e : QEntry) => { e with session := none }
        y.level.toNat = bits k.cause 18 2 ∧ y.cause = 0 ∧ y.trapPc = k.trapPc ∧ y.trapInfo = k.trapInfo ∧
        y.trapGroup = none ∧ y.issueWidth = g.1 ∧ y.forked = g.2 ∧
        (∀ i < g.1, let z := t.bank (bankOf s.ib (u.base + u.member / g.1 * g.1 + i))
          z.pc = BitVec.ofNat 64 (k.trapPc.toNat / 4 * 4) ∧ z.skew.toNat = k.trapPc.toNat % 4) ∧
        (∀ r, y.reg r = k.reg r) ∧ t.mem = s.mem ∧ y.waits = none ∧
        (∀ n, t.core n = { s.core n with vat := { (s.core n).vat with lease := (t.core n).vat.lease } }) ∧
        (∀ q : QueueName, (t.cluster s.focus).halted q = k.traps.any (fun x => x.wide && x.queue == queueCode q)) ∧
        (k.cause.getLsbD 11 = false → ∀ q : QueueName, ((t.cluster s.focus).queue q).map bare = ((s.cluster s.focus).queue q).map bare) ∧
        (k.cause.getLsbD 11 = true → (∀ q : QueueName, ((t.cluster s.focus).queue q).map bare =
            (((s.cluster s.focus).queue q).filter (fun e => !(e.phase == .queued))).map bare) ∧
          y.tokLC = 0 ∧ y.tokCS = 0 ∧ y.tokCL = 0 ∧ y.tokSC = 0) ∧
        (∀ i < g.1, let j := bankOf s.ib (u.base + u.member / g.1 * g.1 + i)
          ∀ v, j ≠ s.ib → (s.bank j).unit = some v → v.id = u.id → (t.bank j).held = false)))

/-- When a fault is neither a page fault of a handle nor delivered, and the unit is not a victim, cancelled or ending: if its issued operations have run to their join, taking it removes the unit, writes the fault record with the time of the fault and the ended flag (and the double flag at level 1 and above), marks its launch entry faulted, retires its record, and cancels the job when its record asked for that. If they have not, taking it parks the unit, which then takes no further fault, and the same happens at the first VICTIM_DISCARD after they have, which before that changes nothing. (That a parked unit takes no further fault, and that a DONE of another member that still ran is undone first, are the model's choices: logs 17 and 19.) -/
def Obligations.FaultEndsTheUnit : Prop :=
  ∀ (b : Nat) (t : Trap) (u : WorkUnit) (j : Job),
    let t' := { t with member := BitVec.ofNat 2 u.member }
    let record := fun (s : State) (time : BitVec 64) =>
      let k := s.bank b
      let seq := match s.job u.part u.crec.job with | some j => j.seq | none => 0
      (s.removeUnit b).faultRecord u.part (recordBytes t.code ((if t.deferred then 1 else 0) + 4 + (if k.level = 0 then 0 else 8)) u.crec.job
        (b / 2 % 4 + 4 * u.member + 16 * (b % 2) + 32 * k.level.toNat) seq (b / 8) t.seq (k.trapAddress t') t.info (causeWord t' k.level)
        u.crec.launch u.crec.graph u.crec.phase time 0)
    let ended := fun (x : State) =>
      let c := x.seeCounter u.part j .launch u.crec.launch
      let y := (c.1.setCounter u.part j .launch u.crec.launch { c.2 with state := c.2.state ||| 4 }).retireRecord u.part u.crec (b / 8)
      if j.cancelOnFault then (y.cancelJob u.part u.crec.job).spreadCancel else y
    (∀ s : State, (s.bank b).unit = some u → (t.page = none ∨ t.code ≠ 0x07) → u.victim = false → u.cancelled = false →
      (s.bank b).ending = none → ((s.bank b).level ≠ 0 ∨ (s.part u.part).handler.getLsbD 0 = false) →
      let x := record { s with banks := clearDone u.id s.banks } (if t.deferred then t.time else s.now)
      (s.joined b u = true → x.job u.part u.crec.job = some j → s.takeTrap b t = ended x) ∧
      (s.joined b u = false → Parks s (s.takeTrap b t) u (.fault b (if t.deferred then t else { t with time := s.now })))) ∧
    (∀ (s : State) (m : Nat) (v : WorkUnit), (s.bank b).unit = some u → (s.bank m).unit = some v →
      (s.bank m).ending = some (.fault b t) →
      let x := record s t.time
      (s.joined m v = true → x.job u.part u.crec.job = some j → exec (.victimDiscard m) s = .next (ended x)) ∧
      (s.joined m v = false → exec (.victimDiscard m) s = .next s) ∧
      (∀ f : Trap, (f.page = none ∨ f.code ≠ 0x07) → v.victim = false → v.cancelled = false →
        s.takeTrap m f = s.setBank m { s.bank m with waits := none }))

/-- TMPL of n = c + 1 slots from h0 offset s[a]: an offset that is no multiple of 16 raises ALIGN, one that runs past the scratchpad HANDLE_BOUNDS, each with the offset; otherwise slot t + i holds the 16 bytes at offset + 16 × i, for i below n, and every other slot is unchanged. WMOV writes s[a] to w[w]; WGET writes w[w] to s[d] and changes nothing else. -/
def Obligations.TemplatesAndWRegisters : Prop :=
  (∀ (s : State) (t a c : BitVec 6), s.free [a] = true →
    let o := s.reg a
    let n := c.toNat + 1
    (o.toNat % 16 ≠ 0 → exec (.tmpl t a c) s = .next (s.raises s { code := 0x08, info := o })) ∧
    (o.toNat % 16 = 0 → 5767168 < o.toNat + 16 * n → exec (.tmpl t a c) s = .next (s.raises s { code := 0x05, info := o })) ∧
    (∀ (k : Core) (bs : List Byte), o.toNat % 16 = 0 → o.toNat + 16 * n ≤ 5767168 → s.curCore.spRead o.toNat (16 * n) = (k, some bs) →
      Answers (.tmpl t a c) s (fun y =>
        (∀ i, i < n → (y.bank s.ib).slot (t.toNat + i) = BitVec.ofNat 128 (ofBytes ((bs.drop (16 * i)).take 16))) ∧
        (∀ i, i < t.toNat ∨ t.toNat + n ≤ i → (y.bank s.ib).slot i = s.cur.slot i) ∧
        (∀ r, y.reg r = s.reg r) ∧ y.mem = s.mem))) ∧
  (∀ (s : State) (w : BitVec 3) (a : BitVec 6), s.free [a] = true →
    Answers (.wmov w a) s (fun y => (y.bank s.ib).getW w.toNat = s.reg a ∧
      (∀ i, i ≠ w.toNat → (y.bank s.ib).getW i = s.cur.getW i) ∧ (∀ r, y.reg r = s.reg r) ∧ OnlyBank s y s.ib)) ∧
  (∀ (s : State) (w : BitVec 3) (d : BitVec 6), s.free [d] = true →
    Answers (.wget d w) s (fun y => Wrote s y d (s.cur.getW w.toNat)))

/-- The template is slot t with one field replaced, added to modulo 2^16, or untouched for field 0, by the value of the word or of s[a][15:0]. Outside its limits both raise TEMPLATE; a token toward a neighbour the queue lacks raises TOKEN; a full queue, an awaited register or a posted FLADD or store on its way, of the bank or of a lower member's word of its bundle, makes them wait (that nothing but these does is the model's choice: log 26). Otherwise the entry goes to the back of the queue of its wide opcode with tmpl, tokens, seq and the values of its registers, seq counts up, a completion token register becomes pending, and nothing else changes: template slots, registers, other queues and memory are as before. Entries are compared without the Vat session that issue may find for them (R213). -/
def Obligations.WideOperationsIssue : Prop :=
  ∀ (s : State) (i : Instr) (t : BitVec 128) (tok : BitVec 4),
    (∃ (k : BitVec 6) (m : BitVec 1) (f : BitVec 3) (v : BitVec 16),
      (i = .patchWord k m f tok v ∨ ∃ a, i = .wir k a m f tok ∧ s.free [a] = true ∧ v = BitVec.ofNat 16 (bits (s.reg a) 0 16)) ∧
      ∀ j < 8, fieldOf t j = if j = f.toNat ∧ f ≠ 0 then (if m = 0 then v else fieldOf (s.cur.slot k.toNat) j + v)
        else fieldOf (s.cur.slot k.toNat) j) →
    let q : QueueName := if wopOf t < 0x40 then .L else if wopOf t < 0xC0 then .C else .S
    let c := s.cluster s.focus
    let fault := fun (code : Code) => exec i s = .next (s.raises s { code := code, info := wordInfo i })
    (s.limits t = none → fault 0x10) ∧
    (∀ n, s.limits t = some n → s.free (n.sregs.map (fun r => BitVec.ofNat 6 r.2)) = false → exec i s = .next (s.stalled s i .earlier)) ∧
    (∀ n, s.limits t = some n → s.free (n.sregs.map (fun r => BitVec.ofNat 6 r.2)) = true →
      let vals := s.cur.issueVals n
      match s.valueLimits t vals (s.cur.getN (bits (fieldOf t 2) 0 3)) with
      | none => fault 0x10
      | some m =>
        let wrong := match q with
          | .L => tok.getLsbD 3 || tok.getLsbD 0
          | .C => false
          | .S => tok.getLsbD 2 || tok.getLsbD 1
        (wrong = true → fault 0x0F) ∧
        (wrong = false → s.storesDone = false → exec i s = .next (s.stalled s i .earlier)) ∧
        (wrong = false → s.storesDone = true → 16 ≤ (c.queue q).length → exec i s = .next (s.stalled s i)) ∧
        (wrong = false → s.storesDone = true → (c.queue q).length < 16 → Answers i s (fun x =>
          let d := x.cluster s.focus
          let bare := fun (e : QEntry) => { e with session := none }
          (∃ e, (d.queue q).map bare = (c.queue q ++ [e]).map bare ∧
            e.tmpl = t ∧ e.tok = tok ∧ e.seq = s.cur.seq ∧ e.phase = .queued ∧
            (∀ j, j ≠ 9 → SMap.get 0 e.vals j = SMap.get 0 vals j) ∧
            e.reads = n.reads ++ m.reads ∧ e.writes = n.writes ++ m.writes ∧ e.limit = s.cur.gLimit) ∧
          d = { c with qL := d.qL, qC := d.qC, qS := d.qS } ∧ (∀ r, r ≠ q → d.queue r = c.queue r) ∧
          x.bank s.ib = { s.cur.advance with
            seq := s.cur.seq + 1
            pend := (match (n.join m).token with | some r => (s.cur.markPending (BitVec.ofNat 6 r)).pend | none => s.cur.pend)
            progress := s.now } ∧
          x = { s with banks := x.banks, clusters := x.clusters } ∧
          (∀ k, k ≠ s.ib → x.bank k = s.bank k) ∧ (∀ k, k ≠ s.focus → x.cluster k = s.cluster k))))

/-- An operation can start only if its queue is not halted, it is queued, every token it waits on is there, and no older operation of the cluster's queues stands in its way. Starting takes its tokens and changes nothing else. An executed operation at the head, other than a GMV, which evaluates only then, completes when its pushes have room and nothing earlier has still to write its token register, and waits otherwise: its writes are made, it leaves the queue, wdone counts up and each token it signals counts up; a counter at 15 stays there and raises a deferred TOKEN that halts the queue. A faulting operation leaves the queue, counts in wdone, ends the count of its bank's stall, releases the registers it has marked, halts its queue, and its deferred trap with its seq and datum is pending. (That a faulting operation counts in wdone and releases its marks is the model's choice: logs 18 and 25.) -/
def Obligations.WideOperationsStartAndComplete : Prop :=
  (∀ (s : State) (cl : Nat) (q : QueueName) (e : QEntry), s.ready cl q = some e →
    let c := s.cluster cl
    let b := s.bank (s.activeBank cl)
    c.halted q = false ∧ e ∈ c.queue q ∧ e.phase = .queued ∧
    (match q with
      | .L => e.tok.getLsbD 2 = true → b.tokCL ≠ 0
      | .C => (e.tok.getLsbD 3 = true → b.tokLC ≠ 0) ∧ (e.tok.getLsbD 2 = true → b.tokSC ≠ 0)
      | .S => e.tok.getLsbD 3 = true → b.tokCS ≠ 0) ∧
    (∀ x, x ∈ c.qL ∨ x ∈ c.qC ∨ x ∈ c.qS → x.seq ≠ e.seq → (e.seq - x.seq).toNat < 2 ^ 31 → blocks x e = false)) ∧
  (∀ (old new : QEntry), old.isVat = false → blocks old new = false →
    (∀ r, r ∈ old.writes → r ∉ new.reads ∧ r ∉ new.writes) ∧ (old.phase = .queued → ∀ r, r ∈ old.reads → r ∉ new.writes)) ∧
  (∀ (s : State) (cl : Nat) (q : QueueName) (e : QEntry) (ph : OpPhase),
    let t := s.startOp cl q e ph
    let b := s.bank (s.activeBank cl)
    let y := t.bank (s.activeBank cl)
    let k := e.tok
    t = { s with banks := t.banks, clusters := t.clusters } ∧ (∀ j, j ≠ s.activeBank cl → t.bank j = s.bank j) ∧
    (∀ j, j ≠ cl → t.cluster j = s.cluster j) ∧ t.cluster cl = (s.cluster cl).setQueue q ((t.cluster cl).queue q) ∧
    ((t.cluster cl).queue q).length = ((s.cluster cl).queue q).length ∧
    y = { b with tokLC := y.tokLC, tokCS := y.tokCS, tokCL := y.tokCL, tokSC := y.tokSC, progress := s.now } ∧ y.tokCS = (if q = .S ∧
      k.getLsbD 3 then b.tokCS - 1 else b.tokCS) ∧ y.tokLC = (if q = .C ∧ k.getLsbD 3 then b.tokLC - 1 else b.tokLC) ∧
    y.tokSC = (if q = .C ∧ k.getLsbD 2 then b.tokSC - 1 else b.tokSC) ∧ y.tokCL = (if q = .L ∧ k.getLsbD 2 then b.tokCL - 1 else b.tokCL)) ∧
  (∀ (s : State) (cl : Nat) (q : QueueName) (e : QEntry) (es : List QEntry) (ws : List WideWrite),
    (s.cluster cl).queue q = e :: es → e.phase = .executed ws →
    (s.pushesFit (cl / 4) ws = false ∨ s.statusNext cl e = false → exec (.wideOperationComplete cl q) s = .next s) ∧
    (s.pushesFit (cl / 4) ws = true → s.statusNext cl e = true → e.seen = none →
      Answers (.wideOperationComplete cl q) s (fun t =>
      let n := s.activeBank cl
      let x := (s.raceTiles cl ws).applyWrites n ws
      let b := x.bank n
      let y := t.bank n
      let k := e.tok
      let bare := fun (e : QEntry) => { e with session := none }
      let up := fun (on : Bool) (v : BitVec 4) => if on = true ∧ v ≠ 15 then v + 1 else v
      let past := (q == .L && k.getLsbD 1 && b.tokLC == 15) || (q == .C && ((k.getLsbD 1 && b.tokCS == 15) || (k.getLsbD 0 && b.tokCL == 15)))
        || (q == .S && k.getLsbD 0 && b.tokSC == 15)
      let w := BitVec.ofNat 64 e.word.toNat
      let token : Trap := { code := 0x0F, deferred := true, wide := true, seq := e.seq, queue := queueCode q, info := w, time := s.now }
      y = { b with
        wdone := b.wdone + 1
        progress := s.now
        tokLC := up (q == .L && k.getLsbD 1) b.tokLC
        tokCS := up (q == .C && k.getLsbD 1) b.tokCS
        tokCL := up (q == .C && k.getLsbD 0) b.tokCL
        tokSC := up (q == .S && k.getLsbD 0) b.tokSC
        traps := if past then b.traps ++ [token] else b.traps } ∧
      ((t.cluster cl).queue q).map bare = es.map bare ∧ (∀ r, r ≠ q → (t.cluster cl).queue r = (x.cluster cl).queue r) ∧
      (t.cluster cl).halted q = (past || (x.cluster cl).halted q) ∧ (t.cluster cl).acc = (x.cluster cl).acc ∧
      t = { x with banks := t.banks, clusters := t.clusters } ∧ (∀ j, j ≠ n → t.bank j = x.bank j) ∧
      (∀ j, j ≠ cl → t.cluster j = x.cluster j)))) ∧
  (∀ (s : State) (cl : Nat) (q : QueueName) (e : QEntry) (c : Code) (info : BitVec 64),
    let n := s.activeBank cl
    let b := s.bank n
    let t := s.failOp cl q e c info
    t = { s with banks := t.banks, clusters := t.clusters } ∧ (∀ j, j ≠ n → t.bank j = s.bank j) ∧ (∀ j, j ≠ cl → t.cluster j = s.cluster j) ∧
    t.bank n = { b with
      traps := b.traps ++ [{ code := c, deferred := true, wide := true, seq := e.seq, queue := queueCode q, info := info, time := s.now }]
      wdone := b.wdone + 1
      progress := s.now
      pend := e.dests.foldl (fun p r => eraseOne r p) b.pend } ∧
    (t.cluster cl).queue q = dropEntry e.seq ((s.cluster cl).queue q) ∧ (t.cluster cl).halted q = true ∧
    (∀ r, r ≠ q → (t.cluster cl).queue r = (s.cluster cl).queue r ∧ (t.cluster cl).halted r = (s.cluster cl).halted r))

/-- An operation of wide opcode 0x40-0x4D that can start executes with one write of all 64 lanes (a predicate for VCMPF) and one of its flags, made at completion: an active lane holds the operation's value of its operands under the mode of F0, an inactive one its old value or 0, and a flag is set exactly when an active lane raises it. VCVT through a codebook slot that holds no table faults with TABLE and writes nothing. (That VCVT reads an immediate of .c2f as an INT32 one is the model's choice: log 61.) -/
def Obligations.VectorLanesCompute : Prop :=
  let m := fun (e : QEntry) => BitVec.ofNat 2 (bits (fieldOf e.tmpl 0) 0 2)
  let sel := fun (e : QEntry) => bits (fieldOf e.tmpl 0) 2 4
  LaneWise .vaddf 0x40 (fun e b l => addF (e.source b 2 true l) (e.source b 3 true l) (m e)) ∧
  LaneWise .vsubf 0x41 (fun e b l => subF (e.source b 2 true l) (e.source b 3 true l) (m e)) ∧
  LaneWise .vmulf 0x42 (fun e b l => mulF (e.source b 2 true l) (e.source b 3 true l) (m e)) ∧
  LaneWise .vfmaf 0x43 (fun e b l => fmaF (e.source b 2 true l) (e.source b 3 true l) (e.source b 4 true l)
    ((fieldOf e.tmpl 0).getLsbD 2) (sel e / 2 == 1) (m e)) ∧
  (∀ (i : Nat → Instr) (wop : Nat) (larger : Bool),
    (i = .vminf ∧ wop = 0x44 ∧ larger = false) ∨ (i = .vmaxf ∧ wop = 0x45 ∧ larger = true) →
    LaneWise i wop (fun e b l =>
      let x := e.source b 2 true l
      let y := e.source b 3 true l
      (if (valF x).isNan ∧ (valF y).isNan then 0x7FC00000 else if (valF x).isNan then y else if (valF y).isNan then x
        else if larger then (if rankF x < rankF y then y else x) else (if rankF y < rankF x then y else x),
        if (valF x).isSnan || (valF y).isSnan then 1 else 0))) ∧
  LaneWise .vsgnf 0x46 (fun e b l =>
    let x := e.source b 2 true l
    let y := e.source b 3 true l
    let sign := if sel e = 0 then y.getLsbD 31 else if sel e = 1 then !y.getLsbD 31 else x.getLsbD 31 ^^ y.getLsbD 31
    (if (valF x).isNan then 0x7FC00000 else BitVec.ofNat 32 (bits x 0 31 + if sign then 2 ^ 31 else 0), 0)) ∧
  LaneWise .vexp2 0x47 (fun e b l => exp2F (e.source b 2 true l) (m e)) ∧
  LaneWise .vlog2 0x48 (fun e b l => log2F (e.source b 2 true l) (m e)) ∧
  LaneWise .vrcp 0x49 (fun e b l => rcpF (e.source b 2 true l) (m e)) ∧
  LaneWise .vrsqrt 0x4A (fun e b l => rsqrtF (e.source b 2 true l) (m e)) ∧
  (∀ (s : State) (cl : Nat) (e : QEntry), s.Starts cl 0x4B e →
    let b := s.bank (s.activeBank cl)
    let k := sel e
    let slot := bits (fieldOf e.tmpl 6) 0 4
    let table := fun (j : Nat) => SMap.get 0 (s.core (cl / 4)).tab (16 * slot + j)
    let x := fun (l : Nat) => e.source b 2 (k != 1 && k != 5) l
    let f := fun (l : Nat) => match k with
      | 0 => (BitVec.ofInt 32 (valToInt (valF (x l)) 32 (m e)).1,
        (valToInt (valF (x l)) 32 (m e)).2.1 ||| if (valToInt (valF (x l)) 32 (m e)).2.2 then 16 else 0)
      | 1 => (intVal (x l).toInt).toF (m e)
      | 2 => (BitVec.ofNat 32 (((valF (x l)).toB (m e)).1.toNat * 2 ^ 16), ((valF (x l)).toB (m e)).2 ||| if (valF (x l)).isSnan then 1 else 0)
      | 3 => cvt 3 (m e) [] (x l)
      | 4 => (BitVec.ofNat 32 (c4Encode (valF (x l)) ((List.range 16).map table)).1, (c4Encode (valF (x l)) ((List.range 16).map table)).2)
      | _ => (BitVec.ofNat 32 ((table (bits (x l) 0 4)).toNat * 2 ^ 16), 0)
    if 4 ≤ k ∧ (s.core (cl / 4)).tabValid.getLsbD slot = false then FailsWith (.vcvt cl) s s cl .C e [] 0x13 (BitVec.ofNat 64 slot)
    else ∃ lanes flags, Executes (.vcvt cl) s s cl .C e [.vreg (bits (fieldOf e.tmpl 1) 0 5) lanes, .flags flags] ∧
      e.Fills b lanes (fun l => (f l).1) ∧ e.Raises b flags (fun l => (f l).2)) ∧
  PredicateWise .vcmpf 0x4C (fun e b l =>
    let x := valF (e.source b 2 true l)
    let y := valF (e.source b 3 true l)
    let nan := x.isNan || y.isNan
    let eq := !nan && !ltVal x y && !ltVal y x
    (match sel e with
      | 0 => eq
      | 1 => !eq
      | 2 => ltVal x y
      | 3 => ltVal x y || eq
      | 4 => ltVal y x
      | 5 => ltVal y x || eq
      | 6 => nan
      | _ => !nan, if (if 2 ≤ sel e ∧ sel e ≤ 5 then nan else x.isSnan || y.isSnan) then 1 else 0)) ∧
  LaneWise .vsel 0x4D (fun e b l =>
    let fp := sel e == 1
    let n := bits (fieldOf e.tmpl 4) 0 3
    let v := if n = 0 ∨ (SMap.get 0 b.p n).getLsbD l then e.source b 2 fp l else e.source b 3 fp l
    (if fp = true ∧ (valF v).isNan then 0x7FC00000 else v, 0))

/-- An operation of wide opcode 0x50-0x5B or 0x60-0x62 that can start executes with one write of all 64 lanes (a predicate for VCMPI): an active lane holds the value of the tables, modulo 2^32 or saturated, signed or unsigned as F0 selects, an inactive one its old value or 0, and no flag is set. -/
def Obligations.IntegerLanesCompute : Prop :=
  let sel := fun (e : QEntry) => bits (fieldOf e.tmpl 0) 2 4
  let x := fun (e : QEntry) (b : Bank) (l : Nat) => e.source b 2 false l
  let y := fun (e : QEntry) (b : Bank) (l : Nat) => e.source b 3 false l
  let clip := fun (v : Int) => BitVec.ofInt 32 (max (-2147483648) (min 2147483647 v))
  let int := fun (i : Nat → Instr) (wop : Nat) (f : Nat → Lane → Lane → Lane) =>
    LaneWise i wop (fun e b l => (f (sel e % 2) (x e b l) (y e b l), 0))
  int .vaddi 0x50 (fun g a b => if g = 1 then clip (a.toInt + b.toInt) else BitVec.ofNat 32 (a.toNat + b.toNat)) ∧
  int .vsubi 0x51 (fun g a b => if g = 1 then clip (a.toInt - b.toInt) else BitVec.ofInt 32 (a.toInt - b.toInt)) ∧
  int .vmuli 0x52 (fun g a b => if g = 1 then clip (a.toInt * b.toInt) else BitVec.ofNat 32 (a.toNat * b.toNat)) ∧
  int .vand 0x53 (fun _ a b => a &&& b) ∧
  int .vor 0x54 (fun _ a b => a ||| b) ∧
  int .vxor 0x55 (fun _ a b => a ^^^ b) ∧
  int .vshl 0x56 (fun _ a b => BitVec.ofNat 32 (a.toNat * 2 ^ (b.toNat % 32))) ∧
  int .vshr 0x57 (fun _ a b => BitVec.ofNat 32 (a.toNat / 2 ^ (b.toNat % 32))) ∧
  int .vsar 0x58 (fun _ a b => BitVec.ofInt 32 (a.toInt / 2 ^ (b.toNat % 32))) ∧
  int .vmini 0x59 (fun g a b => if g = 1 then BitVec.ofNat 32 (min a.toNat b.toNat) else BitVec.ofInt 32 (min a.toInt b.toInt)) ∧
  int .vmaxi 0x5A (fun g a b => if g = 1 then BitVec.ofNat 32 (max a.toNat b.toNat) else BitVec.ofInt 32 (max a.toInt b.toInt)) ∧
  PredicateWise .vcmpi 0x5B (fun e b l =>
    let v := x e b l
    let w := y e b l
    (match sel e with
      | 0 => decide (v = w)
      | 1 => decide (v ≠ w)
      | 2 => decide (v.toInt < w.toInt)
      | 3 => decide (w.toInt ≤ v.toInt)
      | 4 => decide (v.toNat < w.toNat)
      | _ => decide (w.toNat ≤ v.toNat), 0)) ∧
  LaneWise .vbcast 0x60 (fun e b _ =>
    let fp := sel e == 1
    let v := if bits (fieldOf e.tmpl 2) 14 2 = 0 then e.source b 2 fp (bits (y e b 0) 0 6) else e.source b 2 fp 0
    (if fp = true ∧ (valF v).isNan then 0x7FC00000 else v, 0)) ∧
  LaneWise .viota 0x61 (fun e b l => (BitVec.ofNat 32 ((x e b 0).toNat + l * (y e b 0).toNat), 0)) ∧
  LaneWise .vperm 0x62 (fun e b l =>
    let i := y e b l
    let v := if i.getLsbD 6 then e.source b 4 false (bits i 0 6) else e.source b 2 false (bits i 0 6)
    (if sel e = 1 ∧ (valF v).isNan then 0x7FC00000 else v, 0))

/-- For an operation that can start: VREDSUM sums the active lanes over the fixed tree of six levels; VREDMAX and VARGMAX deliver the active lane that ranks above every other, VTOPK puts each active lane at the place its rank gives it among the first k; VPOPC counts; VSCAN leaves the running sum in each active lane; VMOVS pushes one lane; PLOG applies its truth table to all lanes. A vector destination holds the value in every lane, a queue gets one entry; with no active lane the values are those the rules give. Flags are those of the additions made and invalid for a signalling NaN in an active FP32 lane. -/
def Obligations.VectorReductionsAndSelections : Prop :=
  let sel := fun (e : QEntry) => bits (fieldOf e.tmpl 0) 2 4
  let m := fun (e : QEntry) => BitVec.ofNat 2 (bits (fieldOf e.tmpl 0) 0 2)
  let int := fun (e : QEntry) => sel e == 1
  let x := fun (e : QEntry) (b : Bank) (l : Nat) => e.source b 2 (!int e) l
  let clean := fun (e : QEntry) (v : Lane) => if int e = false ∧ (valF v).isNan then 0x7FC00000 else v
  let none' := fun (e : QEntry) => if int e then 0x80000000#32 else 0xFF800000#32
  let rank := fun (e : QEntry) (v : Lane) => if int e then v.toInt else rankF v
  let above := fun (e : QEntry) (b : Bank) (l k : Nat) =>
    decide (rank e (x e b k) < rank e (x e b l)) || (decide (rank e (x e b k) = rank e (x e b l)) && decide (l < k))
  let index := fun (e : QEntry) (b : Bank) (l : Nat) =>
    if bits (fieldOf e.tmpl 3) 14 2 = 0 then e.source b 3 false l else e.source b 3 false 0 + BitVec.ofNat 32 l
  let signals := fun (e : QEntry) (b : Bank) (l : Nat) => if int e = false ∧ (valF (x e b l)).isSnan then (1 : Flags) else 0
  let add := fun (e : QEntry) (v w : Lane) => if int e then (BitVec.ofNat 32 (v.toNat + w.toNat), 0) else addF v w (m e)
  let out := fun (e : QEntry) (v : Lane) => if bits (fieldOf e.tmpl 1) 14 2 = 0 then
      WideWrite.vreg (bits (fieldOf e.tmpl 1) 0 5) (List.replicate 64 v)
    else .push (bits (fieldOf e.tmpl 1) 0 3) (BitVec.ofNat 64 v.toNat)
  (∀ (s : State) (cl : Nat) (e : QEntry), s.Starts cl 0x63 e →
    let b := s.bank (s.activeBank cl)
    ∀ node : Nat → Nat → Option Lane,
      (∀ l < 64, node 0 l = if e.active b l then some (x e b l) else none) →
      (∀ k < 6, ∀ j < 2 ^ (5 - k), node (k + 1) j = match node k (2 * j), node k (2 * j + 1) with
        | some v, some w => some (add e v w).1
        | some v, none => some v
        | none, w => w) →
      ∃ flags : Flags, Executes (.vredsum cl) s s cl .C e [out e (match node 6 0 with | some v => clean e v | none => 0), .flags flags] ∧
        (∀ f < 6, flags.getLsbD f = true ↔
          (∃ k < 6, ∃ j < 2 ^ (5 - k), ∃ v w, node k (2 * j) = some v ∧ node k (2 * j + 1) = some w ∧ (add e v w).2.getLsbD f = true) ∨
          (∃ l < 64, e.active b l = true ∧ (signals e b l).getLsbD f = true))) ∧
  (∀ (s : State) (cl : Nat) (e : QEntry),
    let b := s.bank (s.activeBank cl)
    ∀ v i : Lane, ((∀ l < 64, e.active b l = false) → v = none' e ∧ i = 0xFFFFFFFF) →
      (∀ l < 64, e.active b l = true → (∀ k < 64, e.active b k = true → k ≠ l → above e b l k = true) →
        v = clean e (x e b l) ∧ i = index e b l) →
      (s.Starts cl 0x64 e →
        ∃ flags, Executes (.vredmax cl) s s cl .C e [out e v, .flags flags] ∧ e.Raises b flags (signals e b)) ∧
      (s.Starts cl 0x65 e →
        ∃ flags, Executes (.vargmax cl) s s cl .C e ((if bits (fieldOf e.tmpl 1) 14 2 = 0 then
            [out e v, .vreg (bits (fieldOf e.tmpl 6) 0 5) (List.replicate 64 i)]
          else [.push (bits (fieldOf e.tmpl 1) 0 3) (BitVec.ofNat 64 (i.toNat * 2 ^ 32 + v.toNat))]) ++ [.flags flags]) ∧
          e.Raises b flags (signals e b))) ∧
  (∀ (s : State) (cl : Nat) (e : QEntry), s.Starts cl 0x66 e →
    let b := s.bank (s.activeBank cl)
    let k := bits (fieldOf e.tmpl 4) 0 14
    let active := (List.range 64).filter (e.active b)
    let place := fun (l : Nat) => (active.filter (fun j => above e b j l)).length
    ∃ vs is flags, Executes (.vtopk cl) s s cl .C e
        [.vreg (bits (fieldOf e.tmpl 1) 0 5) vs, .vreg (bits (fieldOf e.tmpl 6) 0 5) is, .flags flags] ∧
      vs.length = 64 ∧ is.length = 64 ∧ e.Raises b flags (signals e b) ∧
      (∀ l < 64, e.active b l = true → place l < k →
        vs.getD (place l) 0 = clean e (x e b l) ∧ is.getD (place l) 0 = index e b l) ∧
      (∀ j < 64, min k active.length ≤ j → vs.getD j 0 = none' e ∧ is.getD j 0 = 0xFFFFFFFF)) ∧
  (∀ (s : State) (cl : Nat) (e : QEntry), s.Starts cl 0x67 e →
    let b := s.bank (s.activeBank cl)
    let n := bits (fieldOf e.tmpl 2) 0 3
    Executes (.vpopc cl) s s cl .C e [out e (BitVec.ofNat 32 ((List.range 64).filter (fun l =>
      e.active b l && (n == 0 || (SMap.get 0 b.p n).getLsbD l))).length)]) ∧
  (∀ (s : State) (cl : Nat) (e : QEntry), s.Starts cl 0x69 e →
    let b := s.bank (s.activeBank cl)
    ∀ run : Nat → Option Lane, run 0 = none →
      (∀ l < 64, run (l + 1) = if e.active b l then
          some (match run l with | some r => (add e r (x e b l)).1 | none => x e b l) else run l) →
      ∃ lanes flags, Executes (.vscan cl) s s cl .C e [.vreg (bits (fieldOf e.tmpl 1) 0 5) lanes, .flags flags] ∧
        e.Fills b lanes (fun l => clean e ((run (l + 1)).getD 0)) ∧
        e.Raises b flags (fun l => (match run l with | some r => (add e r (x e b l)).2 | none => 0) ||| signals e b l)) ∧
  (∀ (s : State) (cl : Nat) (e : QEntry), s.Starts cl 0x68 e →
    let b := s.bank (s.activeBank cl)
    let v := e.source b 2 false (bits (e.source b 3 false 0) 0 6)
    Executes (.vmovs cl) s s cl .C e [.push (bits (fieldOf e.tmpl 1) 0 3) (if sel e = 1 then bits64 v.toInt else BitVec.ofNat 64 v.toNat)]) ∧
  (∀ (s : State) (cl : Nat) (e : QEntry), s.Starts cl 0x6A e →
    let b := s.bank (s.activeBank cl)
    ∃ v : BitVec 64, Executes (.plog cl) s s cl .C e [.preg (bits (fieldOf e.tmpl 1) 0 3) v] ∧
      ∀ l < 64, v.getLsbD l = (sel e).testBit
        (2 * ((b.getP (bits (fieldOf e.tmpl 2) 0 3)).getLsbD l).toNat + ((b.getP (bits (fieldOf e.tmpl 3) 0 3)).getLsbD l).toNat))

/-- For an operation that can start and whose scratchpad reads meet no uncorrectable codeword and whose formats have their tables: each executes with the writes named, every element converted from the format of its source to that of its destination with the flags of the conversions of FP32 values. Without a table it faults with TABLE and the slot, at an uncorrectable codeword with POISON and its offset; a lane of VLDG or VSTS outside the bank of its base faults with HANDLE_BOUNDS; TABLD of an entry that is infinite or a NaN faults with TABLE. A fault writes nothing. (That the lowest lane gives the datum of HANDLE_BOUNDS is the model's: log 20; so is the order HANDLE_BOUNDS, TABLE, POISON: log 35; and which of two slots without a table is named: log 31.) -/
def Obligations.ScratchpadAndTileMoves : Prop :=
  let f32 : Format := { code := 2 }
  let lane := fun (f : Format) => ({ code := if f.code = 3 ∨ f.code = 5 then 5 else 2 } : Format)
  let off := fun (o : Nat) => BitVec.ofNat 64 o
  let reads := fun (i : Instr) (s : State) (cl : Nat) (e : QEntry) (fmt : BitVec 64) (o : Nat) (ks : List Nat)
      (k : Format → State → List Nat → Prop) =>
    (∀ slot, (s.core (cl / 4)).formatOf fmt = .error slot → FailsWith i s s cl (routeOf (wopOf e.tmpl)) e [] 0x13 (off slot)) ∧
    (∀ f, (s.core (cl / 4)).formatOf fmt = .ok f →
      (∀ c x, (s.core (cl / 4)).elements o (fmtBits f.code) ks = (c, .error x) →
        FailsWith i s (s.setCore (cl / 4) c) cl (routeOf (wopOf e.tmpl)) e [] 0x19 (off x)) ∧
      (∀ c xs, (s.core (cl / 4)).elements o (fmtBits f.code) ks = (c, .ok xs) → k f (s.setCore (cl / 4) c) xs))
  (∀ (s : State) (cl : Nat) (e : QEntry),
    let c := s.core (cl / 4)
    let b := s.bank (s.activeBank cl)
    let d := bits (fieldOf e.tmpl 1) 0 5
    let active := (List.range 64).filter (e.active b)
    (s.Starts cl 0x00 e →
      (∀ c' x, c.gather ((List.range (e.shapeOf 1).bytes).map (e.start 2 + ·)) = (c', .error x) →
        FailsWith (.tld cl) s (s.setCore (cl / 4) c') cl .L e [] 0x19 (off x)) ∧
      (∀ c' bs, c.gather ((List.range (e.shapeOf 1).bytes).map (e.start 2 + ·)) = (c', .ok bs) →
        Executes (.tld cl) s (s.setCore (cl / 4) c') cl .L e [.tile (e.tileNo 1) (cellsAt 0 bs)])) ∧
    (s.Starts cl 0xC0 e → Executes (.tst cl) s s cl .S e
      [.spad (cellsAt (e.start 1) ((List.range (e.shapeOf 2).bytes).map (fun i => SMap.get 0 c.tiles (32768 * e.tileNo 2 + i))))]) ∧
    (s.Starts cl 0x01 e → reads (.vld cl) s cl e (e.bankFmt (e.start 2 / 262144)) (e.start 2) (List.range 64) (fun f x xs =>
      ∃ lanes, Executes (.vld cl) s x cl .L e [.vreg d lanes] ∧
        e.Fills b lanes (fun l => BitVec.ofNat 32 (convert f (lane f) (xs.getD l 0)).1))) ∧
    (s.Starts cl 0x02 e →
      let fmt := e.bankFmt (e.addr 2 / 262144)
      match e.outside b 2 (fmtBits (fmtCode fmt)) with
      | some l => FailsWith (.vldg cl) s s cl .L e [] 0x05 (off (e.elemAt b 2 (fmtBits (fmtCode fmt)) l))
      | none => reads (.vldg cl) s cl e fmt (e.addr 2) (active.map (fun l => (e.source b 3 false l).toNat)) (fun f x xs =>
          ∃ lanes, Executes (.vldg cl) s x cl .L e [.vreg d lanes] ∧
            e.Fills b lanes (fun l =>
              BitVec.ofNat 32 (convert f (lane f) (xs.getD ((List.range l).filter (e.active b)).length 0)).1))) ∧
    (∀ (i : Instr) (fmt : BitVec 64) (o : Nat) (k : Nat → Nat),
      ((i = .vst cl ∧ s.Starts cl 0xC1 e ∧ o = e.start 1 ∧ k = id ∧ fmt = e.bankFmt (o / 262144)) ∨
       (i = .vsts cl ∧ s.Starts cl 0xC2 e ∧ o = e.addr 1 ∧ k = (fun l => (e.source b 3 false l).toNat) ∧ fmt = e.bankFmt (o / 262144) ∧
        e.outside b 1 (fmtBits (fmtCode fmt)) = none)) →
      match c.formatOf fmt with
      | .error slot => FailsWith i s s cl .S e [] 0x13 (off slot)
      | .ok f => ∃ flags : Flags, Executes i s s cl .S e
          [elemWrite o (fmtBits f.code) (active.map (fun l => (k l, (convert (lane f) f (e.source b 2 false l).toNat).1))), .flags flags] ∧
          e.Raises b flags (fun l => (convert (lane f) f (e.source b 2 false l).toNat).2)) ∧
    (∀ l, s.Starts cl 0xC2 e → e.outside b 1 (fmtBits (fmtCode (e.bankFmt (e.addr 1 / 262144)))) = some l →
      FailsWith (.vsts cl) s s cl .S e [] 0x05 (off (e.elemAt b 1 (fmtBits (fmtCode (e.bankFmt (e.addr 1 / 262144)))) l))) ∧
    (s.Starts cl 0x03 e →
      let n := 64 * (fieldOf e.tmpl 3).toNat
      match c.formatOf (e.bankFmt (e.addr 1 / 262144)) with
      | .error slot => FailsWith (.spcpy cl) s s cl .L e [] 0x13 (off slot)
      | .ok g => reads (.spcpy cl) s cl e (e.bankFmt (e.addr 2 / 262144)) (e.addr 2) (List.range n) (fun f x xs =>
          ∃ flags : Flags, Executes (.spcpy cl) s x cl .L e
            [elemWrite (e.addr 1) (fmtBits g.code) ((List.range n).map (fun k => (k, (convert f g (xs.getD k 0)).1))), .flags flags] ∧
            (∀ j < 6, flags.getLsbD j = true ↔ ∃ k < n, (convert f g (xs.getD k 0)).2.getLsbD j = true))) ∧
    (s.Starts cl 0x08 e →
      let slot := bits (fieldOf e.tmpl 1) 0 4
      let o := e.addr 2 + 32 * bits (fieldOf e.tmpl 3) 0 2
      (∀ c' x, c.elements o 16 (List.range 16) = (c', .error x) →
        FailsWith (.tabld cl) s (s.setCore (cl / 4) c') cl .L e [] 0x19 (off x)) ∧
      (∀ c' xs, c.elements o 16 (List.range 16) = (c', .ok xs) →
        if xs.any (fun v => (valB (BitVec.ofNat 16 v)).isNan || v % 32768 == 0x7F80) then
          FailsWith (.tabld cl) s (s.setCore (cl / 4) c') cl .L e [] 0x13 (off slot)
        else Executes (.tabld cl) s (s.setCore (cl / 4) c') cl .L e [.tab slot (xs.map (BitVec.ofNat 16))]))) ∧
  (∀ (s : State) (cl : Nat) (e : QEntry),
    let c := s.core (cl / 4)
    let acc := (s.cluster cl).acc
    let at' := fun (p : Nat × Nat) => (SMap.get 0 acc (256 * ((fieldOf e.tmpl 3).toNat + p.1) + ((fieldOf e.tmpl 4).toNat + p.2))).toNat
    let flagged := fun (ps : List (Nat × Nat)) (f : Format) (flags : Flags) =>
      ∀ j < 6, flags.getLsbD j = true ↔ ∃ p ∈ ps, (convert f32 f (at' p)).2.getLsbD j = true
    (s.Starts cl 0x82 e → ∃ cells, Executes (.aclr cl) s s cl .C e [.acc cells] ∧ (∀ x ∈ cells, x.2 = 0) ∧
      ∀ i j, i < 256 → j < 256 → ((256 * i + j ∈ cells.map (·.1)) ↔
        ((fieldOf e.tmpl 0).getLsbD 4 = true → i / 128 = bits (fieldOf e.tmpl 0) 3 1 ∧ j / 128 = bits (fieldOf e.tmpl 0) 2 1))) ∧
    (s.Starts cl 0x83 e →
      match c.tileFormat (e.shapeOf 1) with
      | .error n => FailsWith (.ard cl) s s cl .C e [] 0x13 (off n)
      | .ok f => let ps := grid (e.shapeOf 1).rows (e.shapeOf 1).cols
          ∃ flags, Executes (.ard cl) s s cl .C e
            [c.tileWrite (e.tileNo 1) (e.shapeOf 1) (ps.map (fun p => (convert f32 f (at' p)).1)), .flags flags] ∧ flagged ps f flags) ∧
    (s.Starts cl 0x86 e →
      match c.tileFormat (e.shapeOf 2) with
      | .error n => FailsWith (.awr cl) s s cl .C e [] 0x13 (off n)
      | .ok f => Executes (.awr cl) s s cl .C e [.acc ((grid (e.shapeOf 2).rows (e.shapeOf 2).cols).map (fun p =>
          (256 * ((fieldOf e.tmpl 3).toNat + p.1) + (fieldOf e.tmpl 4).toNat + p.2,
            BitVec.ofNat 32 (convert f f32 (c.tileElem (e.tileNo 2) (e.shapeOf 2) p.1 p.2)).1)))]) ∧
    (s.Starts cl 0xC5 e →
      let rows := bits (fieldOf e.tmpl 5) 0 8 + 1
      let cols := bits (fieldOf e.tmpl 5) 8 8 + 1
      match c.formatOf (e.bankFmt (e.addr 1 / 262144)) with
      | .error n => FailsWith (.ardst cl) s s cl .S e [] 0x13 (off n)
      | .ok f => ∃ flags, Executes (.ardst cl) s s cl .S e [elemWrite (e.addr 1) (fmtBits f.code)
            ((grid rows cols).map (fun p => (p.1 * cols + p.2, (convert f32 f (at' p)).1))), .flags flags] ∧ flagged (grid rows cols) f flags) ∧
    (s.Starts cl 0x84 e → Executes (.txp cl) s s cl .C e [c.tileWrite (e.tileNo 1) (e.shapeOf 1)
      ((grid (e.shapeOf 1).rows (e.shapeOf 1).cols).map (fun p => c.tileElem (e.tileNo 2) (e.shapeOf 2) p.2 p.1))]) ∧
    (s.Starts cl 0x85 e →
      match c.tileFormat (e.shapeOf 2), c.tileFormat (e.shapeOf 1) with
      | .error n, _ => FailsWith (.tabsel cl) s s cl .C e [] 0x13 (off n)
      | .ok _, .error n => FailsWith (.tabsel cl) s s cl .C e [] 0x13 (off n)
      | .ok f, .ok g => Executes (.tabsel cl) s s cl .C e [c.tileWrite (e.tileNo 1) (e.shapeOf 1)
          ((grid (e.shapeOf 1).rows (e.shapeOf 1).cols).map (fun p => (convert f g (c.tileElem (e.tileNo 2) (e.shapeOf 2) p.1 p.2)).1))]))

/-- VLEASE opens a session and leaves s[d] awaited, raising LEASE with one open and GANG where the whole unit does not issue; VFREE closes it. Arbitration picks the first requester after the last holder in cyclic order, 4 cycles later the grant gives it n commands and writes s[d] on the first grant. A Vat command starts only under a lease of its session with commands left, takes one, and occupies the array for max(K, 8) cycles, 96 later when asleep; its sums are those of R223. At the occupancy's end it leaves the array, 32 cycles later it completes. At the head of its queue, before its tokens are there, a command whose tile has no table faults with TABLE and one that no session covers with LEASE; one that waits changes nothing. A spent lease ends, and an idle array powers down. (Which of a cluster's sessions is granted first is the model's: log 58; so are that TABLE and coverage are judged before the tokens, and when a command that wakes the array ends: log 31.) -/
def Obligations.VatSessionsAndCommands : Prop :=
  let onlyVat := fun (s t : State) (core : Nat) => t = { s with cores := t.cores } ∧ (∀ k, k ≠ core → t.core k = s.core k) ∧
    t.core core = { s.core core with vat := (t.core core).vat }
  (∀ (s : State) (d : BitVec 6) (n : BitVec 7) (u : WorkUnit), s.free [d] = true → s.cur.unit = some u →
    let i : Instr := .vlease d n
    ((s.cur.width ≠ u.width ∨ u.member ≠ 0) → exec i s = .next (s.raises s { code := 0x1D, info := wordInfo i }) ∧
      exec .vfree s = .next (s.raises s { code := 0x1D, info := wordInfo .vfree })) ∧
    (s.cur.width = u.width → u.member = 0 →
      (s.cur.session.isSome = true → exec i s = .next (s.raises s { code := 0x12, info := s.leaseReg s.ib })) ∧
      (s.cur.session = none →
        (s.leadBank s.ib = s.ib → exec .vfree s = .next (s.passed s)) ∧
        Answers i s (fun t =>
          let v := s.curCore.vat
          let k : VatSession := { no := v.sessions + 1, n := n }
          t.bank s.ib = { s.cur.advance with
            pend := if d = 0 then s.cur.pend else s.cur.pend ++ [d.toNat]
            session := some k
            vregs := s.cur.vregs ++ [(k, d.toNat)]
            progress := s.now } ∧
          t = { s with banks := t.banks, cores := t.cores } ∧ (∀ j, j ≠ s.ib → t.bank j = s.bank j) ∧
          (∀ j, j ≠ s.coreNo → t.core j = s.core j) ∧ t.core s.coreNo = { s.curCore with vat := { v with sessions := v.sessions + 1 } })) ∧
      (∀ k, s.cur.session = some k → u.width = 1 → u.base = s.focus → s.ib = bankOf s.ib u.base → Answers .vfree s (fun t =>
        let y := t.bank s.ib
        y.session = none ∧ y.v = s.cur.v ∧ y.p = s.cur.p ∧ y.seq = s.cur.seq ∧ y.unit = s.cur.unit ∧ t.mem = s.mem ∧
        (∀ e ∈ (t.cluster s.focus).qC, e.isVat = true → e.queued = true → e.session.isSome = true) ∧
        (t.cluster s.focus).qL = (s.cluster s.focus).qL ∧ (t.cluster s.focus).qS = (s.cluster s.focus).qS ∧
        (∀ r, 0 < r → s.cur.vregs = [(k, r)] → s.curCore.vat.picked = none → (s.cluster s.focus).qC = [] → s.cur.aside = [] →
          SMap.get 0 y.s r = BitVec.ofNat 64 (k.n.toNat * 256 + 0x12) ∧ y.vregs = [] ∧ y.pend = eraseOne r s.cur.pend))))) ∧
  (∀ (s : State) (core : Nat),
    let v := (s.core core).vat
    let i : Instr := .vatArbitration core
    ((v.lease.isSome = true ∨ v.picked.isSome = true) → exec i s = .next s) ∧
    (v.lease = none → v.picked = none →
      (∀ j, 1 ≤ j → j ≤ 4 → s.requestsOf (4 * core + (v.lastHolder.toNat + j) % 4) ≠ [] →
        (∀ k, 1 ≤ k → k < j → s.requestsOf (4 * core + (v.lastHolder.toNat + k) % 4) = []) →
        let cl := 4 * core + (v.lastHolder.toNat + j) % 4
        Answers i s (fun t => onlyVat s t core ∧ ∃ k ∈ s.requestsOf cl, (∀ k' ∈ s.requestsOf cl, k.no ≤ k'.no) ∧
          (t.core core).vat = { v with picked := some (cl, s.activeBank cl % 2, k, s.cycles) })) ∧
      ((∀ j < 4, s.requestsOf (4 * core + j) = []) → exec i s = .next s))) ∧
  (∀ (s : State) (core base bank : Nat) (k : VatSession) (t0 : Nat), (s.core core).vat.picked = some (base, bank, k, t0) →
    let b := 2 * base + bank
    let i : Instr := .vatGrant core
    (s.cycles < t0 + 4 → exec i s = .next s) ∧
    (∀ u, t0 + 4 ≤ s.cycles → (s.bank b).unit = some u → s.activeBank base = b → s.sessionOpen b k = true → Answers i s (fun t =>
      (t.core core).vat = { (s.core core).vat with
        picked := none
        lastHolder := BitVec.ofNat 2 base
        lease := some { cluster := base, bank := bank, width := u.width, left := k.n.toNat, granted := s.cycles, session := k } } ∧
      t = { s with cores := t.cores, banks := t.banks } ∧ (∀ j, j ≠ core → t.core j = s.core j) ∧ (∀ j, j ≠ b → t.bank j = s.bank j) ∧
      (∀ r, 0 < r → (s.bank b).vregs = [(k, r)] → t.bank b = { s.bank b with
        s := SMap.set 0 (s.bank b).s r (BitVec.ofNat 64 (k.n.toNat * 256))
        pend := eraseOne r (s.bank b).pend
        vregs := [] }) ∧
      ((s.bank b).vregs = [] → t.bank b = s.bank b)))) ∧
  (∀ (s : State) (cl : Nat) (e : QEntry) (scaled : Bool),
    let i : Instr := if scaled then .mmas cl else .mma cl
    let c := s.core (cl / 4)
    s.headOp cl = some e → wopOf e.tmpl = (if scaled then 0x81 else 0x80) → s.tablesPending cl e = false →
    let fails := fun (code : Code) (info : BitVec 64) => exec i s = .next ((s.failOp cl .C e code info).checkLease (cl / 4))
    (∀ n, c.tileFormat (e.shapeOf 2) = .error n → fails 0x13 (BitVec.ofNat 64 n)) ∧
    (∀ fa n, c.tileFormat (e.shapeOf 2) = .ok fa → c.tileFormat (e.shapeOf 3) = .error n → fails 0x13 (BitVec.ofNat 64 n)) ∧
    (∀ fa fb, c.tileFormat (e.shapeOf 2) = .ok fa → c.tileFormat (e.shapeOf 3) = .ok fb →
      (∀ k, e.session = some k → k.no = 0 → fails 0x12 (s.leaseReg (s.activeBank cl))) ∧
      (∀ k, e.session = some k → k.no ≠ 0 → (s.ready cl .C ≠ some e ∨ s.leaseFor cl k = none) → exec i s = .next s) ∧
      (∀ k l, e.session = some k → k.no ≠ 0 → s.ready cl .C = some e → s.leaseFor cl k = some l →
        let v := c.vat
        (v.lease = some l ∧ l.session = k ∧ 0 < l.left ∧ v.running = none ∧ s.holdsVat (s.activeBank cl) = true ∧
          s.cycles < l.granted + 8192) ∧
        ∃ cells : List (Nat × Lane), exec i s = .next
          ((s.setCore (cl / 4) { c with vat := { v with
            lease := some { l with left := l.left - 1 }
            asleep := false
            running := some (cl, s.cycles + (if v.asleep then 96 else 0) + max (e.shapeOf 2).cols 8) } }).startOp cl .C e (.occupying [.acc cells])) ∧
          let n := (e.shapeOf 2).rows
          let place := fun (i j : Nat) => if (e.shapeOf 2).fmt = 0 then 256 * i + j
            else 256 * (128 * bits (fieldOf e.tmpl 0) 3 1 + i) + (128 * bits (fieldOf e.tmpl 0) 2 1 + j)
          let K := (e.shapeOf 2).cols
          let A := fun (i j : Nat) => fa.val (c.tileElem (e.tileNo 2) (e.shapeOf 2) i j)
          let B := fun (i j : Nat) => fb.val (c.tileElem (e.tileNo 3) (e.shapeOf 3) i j)
          let scale := fun (f : Nat) (i j : Nat) =>
            if scaled then ({ code := 4 } : Format).val (c.tileElem (e.tileNo f) (e.shapeOf f) i j) else .fin false 1 0
          cells.length = n * n ∧
          ∀ i j, i < n → j < n → ∀ x : Nat → Lane, x 0 = SMap.get 0 (s.cluster cl).accNow (place i j) →
            (∀ b < ceilDiv K 32, x (b + 1) = vatBlock (x b)
              ((List.range (min 32 (K - 32 * b))).map (fun k => A i (32 * b + k)))
              ((List.range (min 32 (K - 32 * b))).map (fun k => B (32 * b + k) j)) (scale 4 i b) (scale 5 b j)) →
            cells[n * i + j]? = some (place i j, x (ceilDiv K 32))))) ∧
  (∀ (s : State) (core cl t0 : Nat), (s.core core).vat.running = some (cl, t0) →
    let v := (s.core core).vat
    let i : Instr := .vatOccupancyEnd core
    (s.cycles < t0 → exec i s = .next s) ∧
    (t0 ≤ s.cycles → Answers i s (fun t =>
      let w := (t.core core).vat
      let bare := fun (e : QEntry) => { e with session := none }
      w = { v with running := none, leaving := v.leaving ++ [(cl, s.cycles + 32)], idleFrom := s.cycles, lease := w.lease } ∧
      (w.lease = v.lease ∨ w.lease = none) ∧ (∀ l, v.lease = some l → l.left = 0 ∨ l.granted + 8192 ≤ s.cycles → w.lease = none) ∧
      (∀ e es ws, (s.cluster cl).qC = e :: es → e.phase = .occupying ws →
        ((t.cluster cl).qC).map bare = ({ e with phase := .draining ws } :: es).map bare) ∧
      t.banks = s.banks ∧ t.mem = s.mem))) ∧
  (∀ (s : State) (core cl t0 : Nat) (rest : List (Nat × Nat)) (e : QEntry) (es : List QEntry) (ws : List WideWrite),
    (s.core core).vat.leaving = (cl, t0) :: rest → (s.cluster cl).qC = e :: es → e.phase = .draining ws →
    let i : Instr := .vatCommandComplete core
    (s.cycles < t0 → exec i s = .next s) ∧
    (t0 ≤ s.cycles → exec i s = .next
      (((s.setCore core { s.core core with vat := { (s.core core).vat with leaving := rest } }).completeOp cl .C e ws).judge cl))) ∧
  (∀ (s : State) (core : Nat),
    let v := (s.core core).vat
    (∀ l, v.lease = some l → l.granted + 8192 ≤ s.cycles → v.running = none →
      exec (.leaseTimeout core) s = .next (s.setCore core { s.core core with vat := { v with lease := none } })) ∧
    (∀ l, v.lease = some l → (s.cycles < l.granted + 8192 ∨ v.running ≠ none) → exec (.leaseTimeout core) s = .next s) ∧
    exec (.vatPowerDown core) s = .next (if v.asleep = false ∧ v.running = none ∧ v.idle ≠ 0 ∧ v.idleFrom + v.idle.toNat ≤ s.cycles then
      s.setCore core { s.core core with vat := { v with asleep := true } } else s))

/-- Over a scratchpad whose codewords need no correction: GLOAD binds the header and value table, or faults with the first check of R326 that fails and g_status as its datum. GMV with no binding faults with RULE_TOPOLOGY, and with sides that do not fit or output vectors that overlap with HANDLE_BOUNDS; else it starts, and keeps what its sources hold. It evaluates when it completes: over sources that have not been written meanwhile and an RVF in which no further entry has become uncorrectable, with a bound section whose entries and symbols are in range, whose references point backwards and whose depths are the stored ones within the limit, the RVF entry of each rule and vector, and each row's output, is the left-to-right sum of its terms, each addition rounded, canon_nan for a NaN; with accumulate set the old element is added. A GMV or GRVF waits while another cluster's runs or one stands before it in the order of arrival. GRVF puts the entries from its base on in the active lanes. (HANDLE_BOUNDS for a range of no bytes beyond the scratchpad, and formats that stand as they do at the start, are the model's choice: log 62; that an RVF entry which becomes uncorrectable only after the start counts is that of log 36; what a race with a GMV's sources gives is that of logs 4 and 48. The faults of a bound section, R329, are not stated here.) -/
def Obligations.SeparatorLoadsAndEvaluates : Prop :=
  let clean := fun (c : Core) => ∀ t < 262144, c.decodeWord t = some ([], false)
  let word := fun (c : Core) (o n : Nat) => ofBytes ((List.range n).map (fun i => SMap.get 0 c.spad (o + i)))
  let status := fun (code : Code) => BitVec.ofNat 64 (0xFFFFFFFF * 2 ^ 32 + code.toNat * 2 ^ 16)
  let datum := fun (b : Bank) (v : BitVec 64) => v + match b.binding with | some g => BitVec.ofNat 64 (2 ^ 15 + g.depth % 16) | none => 0
  (∀ (s : State) (cl : Nat) (e : QEntry), s.Starts cl 0x09 e → clean (s.core (cl / 4)) →
    let c := s.core (cl / 4)
    let x := s.setCore (cl / 4) c
    let b := s.bank (s.activeBank cl)
    let o := e.addr 1
    let w := fun (k : Nat) => word c (o + k) 4
    let inside := fun (off n : Nat) => o + off + n ≤ 5767168
    let fails := fun (code : Code) => FailsWith (.gload cl) s x cl .L e [.gstat (status code)] code (datum b (status code))
    let form := word c o 2 = 1 ∧ word c (o + 3) 1 = 0 ∧ (∀ k < 32, SMap.get 0 c.spad (o + 32 + k) = 0) ∧
      1 ≤ w 8 ∧ w 8 ≤ 65536 ∧ 1 ≤ w 12 ∧ w 12 ≤ 8388608
    let depth := word c (o + 2) 1 ≤ e.limit.toNat ∧ (word c (o + 2) 1 = 0 ↔ w 4 = 0)
    let align := w 20 % 8 = 0 ∧ w 24 % 8 = 0 ∧ w 28 % 4 = 0
    let fits := inside (w 20) (8 * w 4) ∧ inside (w 24) (8 * w 8) ∧ inside (w 28) (4 * w 16)
    (¬ form → fails 0x15) ∧ (form → 8192 < w 4 → fails 0x16) ∧ (form → w 4 ≤ 8192 → ¬ depth → fails 0x14) ∧
    (form → w 4 ≤ 8192 → depth → ¬ align → fails 0x08) ∧ (form → w 4 ≤ 8192 → depth → align → ¬ fits → fails 0x05) ∧
    (form → w 4 ≤ 8192 → depth → align → fits → Executes (.gload cl) s x cl .L e [.bind
      { image := o, depth := word c (o + 2) 1, rules := w 4, rows := w 8, cols := w 12, symbols := w 16, ruleIndex := w 20, rowIndex := w 24,
        stream := w 28, table := (List.range 256).map (fun k => BitVec.ofNat 16 (word c (o + 64 + 2 * k) 2)) }])) ∧
  (∀ (s : State) (cl : Nat) (e : QEntry), 
    (s.separatorBusy cl = true ∨ ∃ k ks, (s.core (cl / 4)).sepQueue = k :: ks ∧ k ≠ cl % 4) →
    (s.Starts cl 0x90 e → exec (.gmv cl) s = .next s) ∧ (s.Starts cl 0x91 e → exec (.grvf cl) s = .next s)) ∧
  (∀ (s : State) (cl : Nat) (e : QEntry), s.Starts cl 0x90 e → s.separatorTakes cl = true →
    (s.bank (s.activeBank cl)).binding = none → FailsWith (.gmv cl) s s cl .C e [.gstat (status 0x15)] 0x15 (status 0x15)) ∧
  (∀ (s : State) (cl : Nat) (e : QEntry) (g : Binding),
    s.Starts cl 0x90 e → s.separatorTakes cl = true → (s.bank (s.activeBank cl)).binding = some g →
    let c := s.core (cl / 4)
    let n := bits (fieldOf e.tmpl 0) 2 3 + 1
    let fx := e.bankFmt (e.addr 2 / 262144)
    let fy := e.bankFmt (e.addr 1 / 262144)
    let wx := fmtBits (fmtCode fx) / 8
    let wy := fmtBits (fmtCode fy) / 8
    let fits := (∀ v < n, c.sideOk (e.addr 2 / 262144) fx (e.addr 2 + e.addr 3 * v) (g.cols * wx) = true ∧
      c.sideOk (e.addr 1 / 262144) fy (e.addr 1 + e.addr 4 * v) (g.rows * wy) = true) ∧ (1 < n → g.rows * wy ≤ e.addr 4)
    (fits → Executes (.gmv cl) s s cl .C e [] (some { binding := g, cells := c.columns (e.sources g), failed := c.failed, rvfBad := c.rvfBad })) ∧
    (¬ fits → FailsWith (.gmv cl) s s cl .C e [.gstat (status 0x05)] 0x05 (datum (s.bank (s.activeBank cl)) (status 0x05)))) ∧
  (∀ (s : State) (cl : Nat) (e : QEntry) (es : List QEntry) (old : GmvView) (depths : Nat → Nat) (value : Bool → Nat → Nat → Lane),
    (s.cluster cl).qC = e :: es → e.phase = .executed [] → e.seen = some old → s.statusNext cl e = true → clean (s.core (cl / 4)) →
    let c := s.core (cl / 4)
    let g := old.binding
    let n := bits (fieldOf e.tmpl 0) 2 3 + 1
    let fx := e.bankFmt (e.addr 2 / 262144)
    let fy := e.bankFmt (e.addr 1 / 262144)
    let wx := fmtBits (fmtCode fx) / 8
    let wy := fmtBits (fmtCode fy) / 8
    let f32 : Format := { code := 2 }
    let input := fun (v k : Nat) => BitVec.ofNat 32 (convert { code := fmtCode fx } f32 (word c (e.addr 2 + e.addr 3 * v + wx * k) wx)).1
    let entry := fun (row : Bool) (id : Nat) => word c (g.image + (if row then g.rowIndex else g.ruleIndex) + 8 * id) 8
    let start := fun (row : Bool) (id : Nat) => entry row id % 2 ^ 32
    let len := fun (row : Bool) (id : Nat) => entry row id / 2 ^ 32 % 2 ^ 24
    let symbols := fun (row : Bool) (id : Nat) => (List.range (len row id)).map (fun k => word c (g.image + g.stream + 4 * (start row id + k)) 4)
    let fine := fun (row : Bool) (id below : Nat) => start row id + len row id ≤ g.symbols ∧
      ∀ y ∈ symbols row id, (2 ^ 31 ≤ y → y - 2 ^ 31 < below) ∧ (y < 2 ^ 31 → y / 256 < g.cols)
    let term := fun (v y : Nat) => if y < 2 ^ 31 then (mulVal (valB (g.table.getD (y % 256) 0)) (valF (input v (y / 256)))).1
      else valF (value false (y - 2 ^ 31) v)
    let sum := fun (v : Nat) (ys : List Nat) => ys.foldl (fun (a : Option Val) y => some (match a with
      | none => term v y
      | some x => valF ((addVal x (term v y) 0).1.toF 0).1)) none
    let result := fun (v : Nat) (ys : List Nat) => match sum v ys with
      | none => (0 : Lane)
      | some x => if x.isNan then 0x7FC00000 else (x.toF 0).1
    old.changed c (e.sources g) = [] → (∀ k, SMap.get false c.rvfBad k = true → SMap.get false old.rvfBad k = true) →
    (∀ r ∈ e.sources g, r.1 + r.2 ≤ 5767168) → (fmtCode fx = 1 ∨ fmtCode fx = 2) → (fmtCode fy = 1 ∨ fmtCode fy = 2) →
    (∀ id < g.rules, fine false id id ∧ depths id = ((symbols false id).filter (2 ^ 31 ≤ ·)).foldl (fun d y => max d (depths (y - 2 ^ 31) + 1)) 1 ∧
      depths id = entry false id / 2 ^ 56 % 16 ∧ depths id ≤ e.limit.toNat ∧ ∀ v < n, value false id v = result v (symbols false id)) →
    (∀ r < g.rows, fine true r g.rules ∧ ∀ v < n, value true r v = result v (symbols true r)) →
    let old := fun (v r : Nat) => BitVec.ofNat 32 (convert { code := fmtCode fy } f32 (word c (e.addr 1 + e.addr 4 * v + wy * r) wy)).1
    let out := fun (v r : Nat) => if (fieldOf e.tmpl 0).getLsbD 0 then (addF (old v r) (value true r v) 0).1 else value true r v
    ∃ (cells : List (Nat × Lane)) (flags : Flags),
      exec (.wideOperationComplete cl .C) s = .next (((s.setCore (cl / 4) c).completeOp cl .C e ([.rvf cells] ++ (List.range n).map (fun v =>
        elemWrite (e.addr 1 + e.addr 4 * v) (8 * wy) ((List.range g.rows).map (fun r =>
          (r, (convert f32 { code := fmtCode fy } (out v r).toNat).1)))) ++ [.flags flags])).judge cl) ∧
      (∀ id v, id < g.rules → v < n → SMap.get 0 cells (8 * id + v) = value false id v) ∧
      (∀ k ∈ cells.map (·.1), ∃ id v, id < g.rules ∧ v < n ∧ k = 8 * id + v)) ∧
  (∀ (s : State) (cl : Nat) (e : QEntry), s.Starts cl 0x91 e → s.separatorTakes cl = true →
    let c := s.core (cl / 4)
    let b := s.bank (s.activeBank cl)
    let key := fun (l : Nat) => 8 * ((uniformVal (fieldOf e.tmpl 2) e.vals 2).toNat + l) + bits (fieldOf e.tmpl 0) 2 3
    (∀ l < 64, e.active b l = true → SMap.get false c.rvfBad (key l) = false) →
    ∃ lanes, Executes (.grvf cl) s s cl .C e [.vreg (bits (fieldOf e.tmpl 1) 0 5) lanes] ∧ e.Fills b lanes (fun l => SMap.get 0 c.rvf (key l)))

/-- A copy whose handle is VALID, with tables for its formats and its offset within the handle, starts before its first window, with the tables it will use to its end, a CPYR at the window of its progress; a node copy starts when its tokens lie in the span of a live node whose ancestors are here, and takes the nodes it will read. A handle that is not VALID, lacks write intent or ends before the offset, a missing table, a status word that does not fit, a dead, remote, foreign or sealed node each complete with their code and write nothing else; a page fault leaves a page request; a CPYR of a success completes with its status word; a copy whose walk runs, or whose 32 cycles have not passed, waits. Under way, a copy no side of whose window meets a fault moves that window of 4,096 stream bytes: the converted elements in order, with the flags they raise; with the last window it has executed, and its token is the stream's size with code 0. A REVOKE of its handle stops it before the next window with HANDLE_INVALID and the progress; a node copy whose first node is gone ends with NODE. (One window a step, with the flags of completed windows alone, and the order of the first checks are the model's: log 34; so are a node copy's HANDLE_BOUNDS before any window, log 38, and its code for a root register, log 20.) -/
def Obligations.CopiesMoveTheirElements : Prop :=
  let word := fun (c : Core) (o n : Nat) => ofBytes ((List.range n).map (fun i => SMap.get 0 c.spad (o + i)))
  let nibble := fun (v k : Nat) => v / 16 ^ (k % 2) % 16
  let token := fun (e : QEntry) (p : Nat) (code : Code) =>
    WideWrite.sreg (bits (fieldOf e.tmpl 1) 0 6) (BitVec.ofNat 64 (p % 2 ^ 24 * 256 + code.toNat))
  let under := fun (s : State) (cl wop : Nat) (e : QEntry) (k : Nat) (f : Flags) =>
    (∃ es, (s.cluster cl).queue (routeOf wop) = e :: es) ∧ wopOf e.tmpl = wop ∧ e.phase = .copying k f
  let moves := fun (i : Instr) (s x : State) (cl wop : Nat) (e : QEntry) (out : Bool) (total : Nat) (mem sp : Format) (pa : Nat → Nat) (k : Nat)
      (f : Flags) =>
    let c := s.core (cl / 4)
    let q := routeOf wop
    let w := fmtBits sp.code
    let n := max (fmtBits mem.code / 8) 1
    let lo := k * (32768 / w)
    let hi := min total (lo + 32768 / w)
    let size := ceilDiv (total * w) 8
    let off := e.addr 4
    let stream := fun (k : Nat) => if w = 4 then nibble (word c (off + k / 2) 1) k else word c (off + k * (w / 8)) (w / 8)
    let here := fun (k : Nat) => if mem.code = 0 then nibble (ofBytes (s.bytes (pa k) n)) k else ofBytes (s.bytes (pa k) n)
    let made := fun (k : Nat) => if out then convert sp mem (stream k) else convert mem sp (here k)
    let value := fun (k : Nat) => (made k).1
    let code := if out then mem.code else sp.code
    let dst := fun (k : Nat) => if out then pa k else if w = 4 then off + k / 2 else off + k * (w / 8)
    let byte := fun (v : Nat) => BitVec.ofNat 8 v
    ∀ (u : WorkUnit) (cells : List (Nat × Byte)), (s.bank (s.activeBank cl)).unit = some u → lo < total → s.ingressWaits u.part (pa lo) = false →
    (∀ y ∈ [s, x], ∀ k, lo ≤ k → k < hi → y.objectFault (some (cl / 4)) (pa k) n out = none ∧ (out = false → y.readFault (pa k) n = (y, none))) →
    cells = (if code = 0 then
      (List.range ((hi - lo) / 2)).map (fun j => (dst (lo + 2 * j), byte (value (lo + 2 * j) % 16 + 16 * (value (lo + 2 * j + 1) % 16))))
      else (List.range (hi - lo)).flatMap (fun j => cellsAt (dst (lo + j)) (toBytes (fmtBits code / 8) (value (lo + j))))) →
    ∃ xs : List CopyItem, xs.map (·.mem) = (List.range (hi - lo)).map (fun j => (List.range n).map (pa (lo + j) + ·)) ∧
      let y := x.copyCharge u.part xs
      ((out = true → ∀ l ∈ cellLines cells, y.lineFault l (y.cellSectors cells l) ((wholeLines cells).contains l) = (y, none)) →
        let z := if out then (y.store cells).clearPoison (wholeLines cells) else y.spStore (cl / 4) cells
        ∃ g : Flags, (∀ b, g.getLsbD b = true ↔ ∃ k, lo ≤ k ∧ k < hi ∧ (made k).2.getLsbD b = true) ∧
          exec i s = .next (if 4096 * (k + 1) < size then z.moveOp cl q e (.copying (k + 1) (f ||| g))
            else z.moveOp cl q { e with seen := none } (.executed [.flags (f ||| g), token e size 0])))
  let clean := fun (c : Core) => ∀ t < 262144, c.decodeWord t = some ([], false)
  let ofKind := fun (i : Instr) (cl wop : Nat) (e : QEntry) (kind : Nat) =>
    (i = .cpy cl ∧ wop = 0x04 ∧ kind = 0) ∨ (i = .cpyg cl ∧ wop = 0x05 ∧ kind = 1) ∨ (i = .cpyo cl ∧ wop = 0xC3 ∧ kind = 2) ∨
    (i = .cpys cl ∧ wop = 0xC4 ∧ kind = 3) ∨ (i = .cpyr cl ∧ wop = 0x07 ∧ kind = bits (fieldOf e.tmpl 0) 4 2)
  let starts := fun (s : State) (cl wop : Nat) (e : QEntry) (p : Nat) => s.Starts cl wop e ∧ (wop ≠ 0x07 → p = 0) ∧
    (wop = 0x07 → p = bits e.status 8 24 ∧ bits e.status 0 8 ≠ 0 ∧ p % 4096 = 0 ∧
      p < ceilDiv (e.copyRows * e.copyElems * fmtBits (fmtCode (e.bankFmt (e.addr 4 / 262144)))) 8 ∧
      (bits e.status 0 8 = 0x07 → s.copyAnswer (s.activeBank cl) e = none))
  (∀ (s : State) (cl wop : Nat) (e : QEntry) (i : Instr) (kind p : Nat), ofKind i cl wop e kind → starts s cl wop e p →
    let c := s.core (cl / 4)
    let h := e.handle
    let f2 := fieldOf e.tmpl 2
    let offset := (uniformVal (fieldOf e.tmpl 3) e.vals 3).toNat
    let ends := fun (code : Code) => Executes i s s cl (routeOf wop) e [token e p code]
    let out := decide (2 ≤ kind)
    (h.state = .invalid → ends 0x04) ∧
    (∀ code, h.state = .fault code → code ≠ 0x07 → ends code) ∧
    (h.state = .fault 0x07 →
      Executes i s (s.copyPage (s.activeBank cl) h.walk (h.va + BitVec.ofNat 64 offset) e p) cl (routeOf wop) e [token e p 0x07]) ∧
    (h.state = .translating ∨ h.state = .pending →
      ((s.bank (s.activeBank cl)).handle (bits f2 0 4)).walking h.walk = true ∨ s.cycles < h.start + 32 → exec i s = .next s) ∧
    (h.state = .valid →
      (out = true → h.wi = false → ends 0x06) ∧
      ((out = true → h.wi = true) →
        (c.format? (bits f2 4 3) (bits f2 7 4) = none → ends 0x13) ∧
        (∀ n, c.formatOf (e.bankFmt (e.addr 4 / 262144)) = .error n → ends 0x13) ∧
        (∀ mem sp, c.format? (bits f2 4 3) (bits f2 7 4) = some mem → c.formatOf (e.bankFmt (e.addr 4 / 262144)) = .ok sp →
          (h.limit ≤ offset → ends 0x05) ∧
          (offset < h.limit → exec i s = .next (s.startOp cl (routeOf wop) { e with
            tables := SMap.set [] (SMap.set [] [] 2 mem.table) 4 sp.table } (.copying (p / 4096) 0))))))) ∧
  (∀ (s : State) (cl wop : Nat) (e : QEntry) (i : Instr) (kind k : Nat) (f : Flags), ofKind i cl wop e kind → under s cl wop e k f →
    let c := s.core (cl / 4)
    let h := e.handle
    let f2 := fieldOf e.tmpl 2
    let offset := (uniformVal (fieldOf e.tmpl 3) e.vals 3).toNat
    let step := SMap.get 0 e.vals 7
    let gather := kind = 1 ∨ kind = 3
    let out := decide (2 ≤ kind)
    (h.state ≠ .valid → exec i s = .next (s.moveOp cl (routeOf wop) { e with seen := none } (.executed [.flags f, token e (4096 * k) 0x04]))) ∧
    (∀ va : Nat → BitVec 64, h.state = .valid → kind < 4 → clean c →
      let stream := e.bankFmt (e.addr 4 / 262144)
      let mem := e.takenFormat 2 (bits f2 4 3) (bits f2 7 4)
      let sp := e.takenFormat 4 (fmtCode stream) (fmtSlot stream)
      let n := max (fmtBits mem.code / 8) 1
      let elems := (fieldOf e.tmpl 6).toNat + 1
      let total := (bits (fieldOf e.tmpl 5) 0 12 + 1) * elems
      ((if out then mem.code else sp.code) = 0 → elems % 2 = 0) →
      (∀ k < total, va k = h.va + BitVec.ofNat 64 (offset + (if mem.code = 0 then k % elems / 2 else k % elems * n)) +
          (if gather then BitVec.ofNat 64 (word c (bits step 32 32 + 4 * (k / elems)) 4 * bits step 0 32)
            else BitVec.ofNat 64 (k / elems) * step) ∧
        (va k).toNat % n = 0 ∧ h.covers (va k) = true ∧ memKind (h.frame + (va k).toNat % h.size) ≠ .host) →
      moves i s (if gather ∨ out = true then s.setCore (cl / 4) c else s) cl wop e out total mem sp (fun k => h.frame + (va k).toNat % h.size) k f)) ∧
  (∀ (s : State) (cl : Nat) (e : QEntry), s.Starts cl 0x07 e →
    let b := s.activeBank cl
    let p := bits e.status 8 24
    let size := ceilDiv (e.copyRows * e.copyElems * fmtBits (fmtCode (e.bankFmt (e.addr 4 / 262144)))) 8
    (bits e.status 0 8 = 0 → Executes (.cpyr cl) s s cl .L e [.sreg (bits (fieldOf e.tmpl 1) 0 6) e.status]) ∧
    (bits e.status 0 8 ≠ 0 → (p % 4096 ≠ 0 ∨ size ≤ p) → Executes (.cpyr cl) s s cl .L e [token e p 0x1F]) ∧
    (∀ a, bits e.status 0 8 = 0x07 → p % 4096 = 0 → p < size → s.copyAnswer b e = some a →
      (a.answered = false → exec (.cpyr cl) s = .next s) ∧
      (a.answered = true → a.failed = true → Executes (.cpyr cl) s (s.dropAnswer b a) cl .L e [token e p 0x07]))) ∧
  (∀ (s : State) (cl wop : Nat) (e : QEntry) (i : Instr) (out : Bool),
    (i = .cpyn cl ∧ wop = 0x06 ∧ out = false) ∨ (i = .cpynw cl ∧ wop = 0xC6 ∧ out = true) →
    let c := s.core (cl / 4)
    let first := (uniformVal (fieldOf e.tmpl 3) e.vals 3).toNat
    let tokens := bits (fieldOf e.tmpl 7) 0 12 + 1
    let heads := bits (fieldOf e.tmpl 6) 8 8 + 1
    (s.Starts cl wop e →
      let ends := fun (code : Code) => Executes i s s cl (routeOf wop) e [token e 0 code]
      (out = false → SMap.get 0 e.vals 10 = 1 → ends 0x17) ∧
      ((out = false → SMap.get 0 e.vals 10 ≠ 1) →
        (∀ sigma, e.node = .root sigma → ends 0x05) ∧
        ((∀ sigma, e.node ≠ .root sigma) → s.liveNode e.node = none → ends 0x17) ∧
        (∀ r n, s.liveNode e.node = some (r, n) → s.lineage r n = none → ends 0x17) ∧
        (∀ r n chain, s.liveNode e.node = some (r, n) → s.lineage r n = some chain →
          (spanEnd chain < first + tokens → ends 0x05) ∧
          (first + tokens ≤ spanEnd chain →
            (out = true → first < spanEnd (chain.drop 1) → ends 0x05) ∧
            (out = true → spanEnd (chain.drop 1) ≤ first → n.state ≠ .opened → ends 0x0B) ∧
            (out = true → spanEnd (chain.drop 1) ≤ first → n.state = .opened → n.owner ≠ cl / 4 → ends 0x0A) ∧
            (∀ y, out = false → (e.reads? chain).find? (fun z => z.2.state == .remote) = some y →
              ((fieldOf e.tmpl 0).getLsbD 0 = false → ends 0x17) ∧
              ((fieldOf e.tmpl 0).getLsbD 0 = true → exec i s = .next (s.autoFetch (s.activeBank cl) y.1))) ∧
            ((out = true → spanEnd (chain.drop 1) ≤ first ∧ n.state = .opened ∧ n.owner = cl / 4) →
              (out = false → ∀ z ∈ e.reads? chain, z.2.state ≠ .remote) →
              (∀ m, c.formatOf (e.bankFmt (e.addr 4 / 262144)) = .error m → ends 0x13) ∧
              (∀ sp, c.formatOf (e.bankFmt (e.addr 4 / 262144)) = .ok sp →
                exec i s = .next (s.startOp cl (routeOf wop) { e with
                  nodes := e.spanNodes chain, tables := SMap.set [] [] 4 sp.table } (.copying 0 0)))))))) ∧
    (∀ (k : Nat) (f : Flags), under s cl wop e k f → (out = false → SMap.get 0 e.vals 10 ≠ 1) → e.covering s first = none →
      exec i s = .next (s.moveOp cl (routeOf wop) { e with seen := none } (.executed [.flags f, token e (4096 * k) 0x17]))) ∧
    (∀ (k : Nat) (f : Flags) (n : Node) (start : Nat) (pa : Nat → Nat), under s cl wop e k f →
      (out = false → SMap.get 0 e.vals 10 ≠ 1) → e.covering s first = some (n, start) →
      let stream := e.bankFmt (e.addr 4 / 262144)
      let sp := e.takenFormat 4 (fmtCode stream) (fmtSlot stream)
      sp.code ≠ 0 → 1 ≤ shapeFmt n.shape → 0 < shapeD n.shape → clean c →
      (∀ k < heads * tokens * shapeD n.shape, ∃ y, e.covering s (first + k / shapeD n.shape % tokens) = some y ∧
        pa k = y.1.element (bits (fieldOf e.tmpl 5) 0 8) (bits (fieldOf e.tmpl 2) 3 1)
          (bits (fieldOf e.tmpl 6) 0 8 + k / shapeD n.shape / tokens) (first + k / shapeD n.shape % tokens - y.2) (k % shapeD n.shape)) →
      moves i s (if out then s.setCore (cl / 4) c else s) cl wop e out (heads * tokens * shapeD n.shape) { code := shapeFmt n.shape } sp pa k f))

/-- A register that names no live node makes NLEASE, NREF, NXL and SEAL raise NODE with its number, and NFETCH answer a status with NODE. On a live node NLEASE raises its lease expiry and class, NREF moves refs within its range, NXL puts a VALID handle onto an element or the tokens of the ancestor whose span covers the offset, NFETCH of a node that is here writes its status. PFX covers the blocks whose nodes are indexed, sealed and of equal key, leases each, for its whole duration where no bucket holds its update up, and writes their token count; asking a name's home device, it takes a stub where a record can be had. NOPEN counts the child to come at the parent, waits while frames or a Crock have no room, undoes the count when it fails, and makes an OPEN child; NDROP empties the register and frees the unit's own OPEN node, SEAL waits for the bank's operations and all it has on its way, then names, seals and indexes, yields an equal sealed node, or marks a collision; a walk of SEAL that faults raises the fault, or waits where the Crock has no room for its record. A holder's answer to an NFETCH makes frames, asks the next holder after a refusal, and replicates a node of equal key. Probes, forwarded reads and registrations act as R314 and R315 give, and without a link nothing passes. (The data and the order of PFX's checks are the model's: logs 20 and 38; so are a REMOTE node of equal key that counts as absent at SEAL, and that NFETCH makes frames before it asks a holder: logs 37 and 38; what fills a Crock: log 51.) -/
def Obligations.NodesOfTheCreamery : Prop :=
  let state := fun (x : NodeState) => match x with | .opened => 0 | .sealed => 1 | .evicting => 2 | .remote => 3
  let status := fun (n : Node) (code : Nat) =>
    BitVec.ofNat 64 (n.depth.toNat * 2 ^ 32 + n.tier.toNat * 2 ^ 16 + state n.state * 2 ^ 8 + code)
  let later := fun (n : Node) (t : BitVec 64) => if n.leaseExpiry < t then t else n.leaseExpiry
  let fails := fun (s : State) (i : Instr) (k : BitVec 3) => exec i s = .next (s.raises s { code := 0x17, info := BitVec.ofNat 64 k.toNat })
  let becomes := fun (s : State) (i : Instr) (r : Nat) (n : Node) => ∃ y, exec i s = .next (s.passed y) ∧ y.node r = some n ∧
    (∀ q, q ≠ r → y.node q = s.node q) ∧ (∀ q, y.reg q = s.reg q) ∧ y.index = s.index
  (∀ (s : State) (a b d : BitVec 6) (h : BitVec 4) (k : BitVec 3), s.free [a, b] = true → s.liveNode (s.cur.getN k.toNat) = none →
    fails s (.nlease a k) k ∧ fails s (.nrefInc k) k ∧ fails s (.nrefDec k) k ∧
    ((s.cur.handle h.toNat).state ≠ .translating → fails s (.nxl h a b k) k) ∧
    (∀ u o, s.cur.unit = some u → fails s (.seal o k) k) ∧
    (s.free [d] = true → ∃ v : BitVec 64, bits v 0 8 = 0x17 ∧
      exec (.nfetch d k) s = .next (s.passed (({ s with freeNo := s.freeNo + 1 } : State).setReg d v)))) ∧
  (∀ (s : State) (a b d : BitVec 6) (h : BitVec 4) (k : BitVec 3) (r : Nat) (n : Node), s.liveNode (s.cur.getN k.toNat) = some (r, n) →
    (s.free [a] = true → becomes s (.nlease a k) r { n with
      cls := if (s.reg a).getLsbD 63 then BitVec.ofNat 2 (bits (s.reg a) 32 2) else n.cls
      leaseExpiry := later n (s.now + BitVec.ofNat 64 (1000 * bits (s.reg a) 0 32)) }) ∧
    (n.refs ≠ 0xFFFFFFFF → becomes s (.nrefInc k) r { n with refs := n.refs + 1, raised := true }) ∧ (n.refs = 0xFFFFFFFF → fails s (.nrefInc k) k) ∧
    (n.refs ≠ 0 → becomes s (.nrefDec k) r { n with refs := n.refs - 1, lastRelease := if n.refs = 1 then s.now else n.lastRelease }) ∧
    (n.refs = 0 → fails s (.nrefDec k) k) ∧
    (s.free [d] = true → n.state ≠ .remote → Wrote s ((s.passed (s.setReg d (status n (if n.collided then 0x18 else 0))))) d
        (status n (if n.collided then 0x18 else 0)) ∧
      exec (.nfetch d k) s = .next (s.passed (s.setReg d (status n (if n.collided then 0x18 else 0))))) ∧
    (s.free [d] = true → n.state = .remote → exec (.nfetch d k) s = .next (s.passed (s.setCur { s.cur with
      pend := if d = 0 then s.cur.pend else s.cur.pend ++ [d.toNat]
      nfetch := s.cur.nfetch ++ [{ reg := d.toNat, node := s.cur.getN k.toNat }] }))) ∧
    (∀ chain r' y start, s.free [a, b] = true → (s.cur.handle h.toNat).state ≠ .translating → s.lineage r n = some chain →
      coveringNode chain (s.reg a).toNat = some (r', y, start) → (s.reg a).toNat < spanEnd chain → y.state ≠ .remote →
      let v := s.reg b
      (v.getLsbD 9 = true ∨ (bits v 0 8 < shapeL n.shape ∧ bits v 16 8 < shapeH n.shape)) →
      let pa := if v.getLsbD 9 then y.map + 32 + 4 * ((s.reg a).toNat - start)
        else y.element (bits v 0 8) (bits v 8 1) (bits v 16 8) ((s.reg a).toNat - start) 0
      let mine := y.state == .opened && y.owner == s.coreNo
      exec (.nxl h a b k) s = .next (s.passed (s.setCur (s.cur.setHandle h.toNat {
        state := .valid, va := BitVec.ofNat 64 (0x00FF000000000000 + pa)
        frame := pa / 65536 * 65536, size := 65536, limit := 65536 - pa % 65536, perm := if mine then 3 else 1, wi := mine
        nxl := true })))) ∧
    (∀ chain, s.free [a, b] = true → (s.cur.handle h.toNat).state ≠ .translating → s.lineage r n = some chain →
      spanEnd chain ≤ (s.reg a).toNat → exec (.nxl h a b k) s = .next (s.raises s { code := 0x05, info := s.reg a }))) ∧
  (∀ (s : State) (k : BitVec 3) (a b : BitVec 6) (g : BitVec 1), s.free [a, b] = true →
    let o := (s.reg a).toNat
    let count := (s.reg b).toNat
    let p := s.partNo
    let x := s.part p
    let B := 4 * 2 ^ x.kvBlockTokens.toNat
    let c := s.curCore
    (o % 4 ≠ 0 → exec (.pfx k a b g) s = .next (s.raises s { code := 0x08, info := s.reg a })) ∧
    (o % 4 = 0 → 5767168 < o + 4 * count → exec (.pfx k a b g) s = .next (s.raises s { code := 0x05, info := s.reg a })) ∧
    (∀ (m : Nat) (rs : Nat → Nat) (name : Nat → BitVec 128), o % 4 = 0 → o + 4 * count ≤ 5767168 → (g = 0 ∨ s.domainSize ≤ 1) →
      (∀ t < 262144, c.decodeWord t = some ([], false)) →
      let block := fun (j : Nat) => (List.range B).map (fun i =>
        BitVec.ofNat 32 (ofBytes ((List.range 4).map (fun z => SMap.get 0 c.spad (o + 4 * (B * j + i) + z)))))
      let key := fun (j : Nat) => ({
        name := name (j + 1), sigma := s.sigma p, bcode := x.kvBlockTokens, test := x.nameTest, parent := name j
        shape := x.kvShape.extractLsb' 0 32, tokens := block j } : NameKey)
      name 0 = rootName x.nameTest (s.sigma p) → (∀ j, name (j + 1) = childName x.nameTest (s.sigma p) (name j) (block j)) →
      m ≤ count / B → (∀ j < m, ∃ q, s.indexed (name (j + 1)) = some (rs j, q) ∧ q.state = .sealed ∧ s.nodeKey q = key j) →
      (m = count / B ∨ s.indexed (name (m + 1)) = none) →
      ∃ y, exec (.pfx k a b g) s = .next (s.passed y) ∧ (b ≠ 0 → y.reg b = BitVec.ofNat 64 (m * B)) ∧ (∀ q, q ≠ b → y.reg q = s.reg q) ∧
        y.cur.getN k.toNat = (if m = 0 then .root (s.sigma p) else .node (rs (m - 1)) (s.gen (rs (m - 1)))) ∧ y.index = s.index ∧
        (∀ j < m, ∃ q, y.node (rs j) = some q ∧ q.state = .sealed ∧
          ((∀ v b, (s.part v).rate b = 0) → s.now + s.defaultLease p ≤ q.leaseExpiry)))) ∧
  (∀ (s : State) (p : Nat) (node : Option Nat) (k : NameKey), s.indexed k.name = none → 1 < s.domainSize →
    (s.linked = false → k.name.toNat % s.domainSize ≠ s.domainIndex → s.probe k = none) ∧
    (s.probe k = none → s.pfxStep p true false node k = (s, .stop)) ∧
    (∀ e, s.probe k = some e → e.key ≠ k → s.pfxStep p true false node k = (s.setPart p { s.part p with
      collideCount := if (s.part p).collideCount = 0xFFFFFFFF then 0xFFFFFFFF else (s.part p).collideCount + 1 }, .stop)) ∧
    (∀ e z, s.probe k = some e → e.key = k → e.holders ≠ [] →
      (∀ r frames, s.allocate p 1 0 s.nodeFuel = (z, .got r frames) → s.pfxStep p true false node k = (z.makeStub p node k r, .node r true)) ∧
      (s.allocate p 1 0 s.nodeFuel = (z, .none) → s.pfxStep p true false node k = (z, .stop)) ∧
      (s.allocate p 1 0 s.nodeFuel = (z, .waits) → s.pfxStep p true false node k = (z, .waits)))) ∧
  (∀ (s : State) (d k : BitVec 3) (u : WorkUnit) (parent : Option (Nat × Node)), s.cur.unit = some u →
    let x := s.part u.part
    let shape := x.kvShape.extractLsb' 0 32
    let B := 4 * 2 ^ x.kvBlockTokens.toNat
    let i : Instr := .nopen d k
    let x := s.cur.getN k.toNat
    let counted := s.cur.opening = some x
    ((parent = none ∧ ∃ sigma, x = .root sigma) ∨ ∃ q n, parent = some (q, n) ∧ s.liveNode x = some (q, n) ∧
      (counted ∨ n.state = .sealed ∧ n.shape = shape ∧ n.collided = false ∧ n.refs ≠ 0xFFFFFFFF)) →
    ((parent = none ∨ ¬ counted) → shapeUsable shape B = false → fails s i k) ∧
    (∀ (c z : State) (room : Room), (parent = none ∨ ¬ counted → shapeUsable shape B = true) →
      (parent = none → c = s) → (∀ q n, parent = some (q, n) → (counted → c = s) ∧ (¬ counted → c = s.countChild x q n)) →
      c.allocate u.part 1 (pageCount shape B + 1) c.nodeFuel = (z, room) →
      (room = .waits → exec i s = .next (s.stalled z i)) ∧
      (room = .none → exec i s = .next (s.raises (z.undoOpen z.ib) { code := 0x17, info := BitVec.ofNat 64 k.toNat })) ∧
      (∀ (r m : Nat) (frames : List Nat), room = .got r (m :: frames) →
        ((∃ f ∈ r :: m :: frames, z.noRoom u.part f = true) → exec i s = .next (s.stalled z i)) ∧
        ((∀ f ∈ r :: m :: frames, z.noRoom u.part f = false) →
          (∀ f, (r :: m :: frames).find? z.crockFails = some f → exec i s = .next (s.raises ((z.clearCrock f).undoOpen z.ib)
            { code := 0x19, info := BitVec.ofNat 64 (0x00FF000000000000 + f) })) ∧
          ((∀ f ∈ r :: m :: frames, z.crockFails f = false) →
            ∃ y n, exec i s = .next (s.passed y) ∧ y.node r = some n ∧ y.cur.getN d.toNat = .node r (z.gen r) ∧ y.cur.opening = none ∧
              n.state = .opened ∧ n.owner = s.coreNo ∧ n.opener = u.id ∧ n.parent = parent.map (·.1) ∧ n.map = m ∧ n.pages = frames ∧
              n.shape = shape ∧ n.tier = 1 ∧ n.tokens = List.replicate B 0 ∧ n.sigma = s.sigma u.part ∧
              n.depth = (match parent with | some (_, q) => q.depth + 1 | none => 1) ∧ n.refs = 0))))) ∧
  (∀ (s : State) (k : BitVec 3),
    (s.cur.getN k.toNat = .empty → fails s (.ndrop k) k) ∧
    (s.cur.getN k.toNat ≠ .empty →
      let z := s.setCur (s.cur.setN k.toNat .empty)
      let unit := match s.cur.unit with | some u => u.id | none => 0
      match s.liveNode (s.cur.getN k.toNat) with
      | none => exec (.ndrop k) s = .next (s.passed z)
      | some (r, n) => if n.state = .opened ∧ n.opener = unit then
            (n.parent ≠ some r → ∃ y, exec (.ndrop k) s = .next (s.passed y) ∧ y.node r = none ∧ y.cur.getN k.toNat = .empty ∧
              y.gen r = n.gen + 1 ∧ (∀ e ∈ y.index, e.2 ≠ r))
          else exec (.ndrop k) s = .next (s.passed z))) ∧
  (∀ (s : State) (d k : BitVec 3) (u : WorkUnit) (r : Nat) (n : Node), s.cur.unit = some u → s.liveNode (s.cur.getN k.toNat) = some (r, n) →
    ((n.state ≠ .opened ∨ n.opener ≠ u.id) → fails s (.seal d k) k) ∧
    (n.state = .opened → n.opener = u.id → (s.enginesIdle = false ∨ s.wayClear = false) →
      exec (.seal d k) s = .next (s.stalled s (.seal d k))) ∧
    (n.state = .opened → n.opener = u.id → s.enginesIdle = true → s.wayClear = true → s.ingressWaits u.part (n.map + 32) = true →
      exec (.seal d k) s = .next (s.stalled s (.seal d k) .bucket)) ∧
    (∀ (x : State) (c : Option Code), n.state = .opened → n.opener = u.id → s.enginesIdle = true → s.wayClear = true →
      s.ingressWaits u.part (n.map + 32) = false →
      let B := 4 * 2 ^ n.bcode.toNat
      (s.request u.part (n.map + 32) (4 * B)).fillFault (n.map + 32) (4 * B) = (x, c) →
      let tokens := (List.range B).map (fun j => BitVec.ofNat 32 (ofBytes (x.bytes (n.map + 32 + 4 * j) 4)))
      let name := childName n.test n.sigma (x.parentName n) tokens
      let key := { x.nodeKey n with name := name, tokens := tokens }
      (∀ code, c = some code →
        exec (.seal d k) s = .next (s.raises x { code := code, info := BitVec.ofNat 64 (0x00FF000000000000 + (n.map + 32)) })) ∧
      (∀ q e, c = none → x.indexed name = some (q, e) → e.state = .sealed → x.nodeKey e = key → q ≠ r → n.parent ≠ some r →
        ∃ y, exec (.seal d k) s = .next (s.passed y) ∧ y.node r = none ∧ y.cur.getN d.toNat = .node q (y.gen q)) ∧
      (∀ y fault, c = none → (∀ q e, x.indexed name = some (q, e) → ¬ (e.state = .sealed ∧ x.nodeKey e = key)) →
        x.publish x.ib (x.walker u 4 .seal) (BitVec.ofNat 64 (0x00FF000000000000 + r)) = (y, some fault) →
        exec (.seal d k) s = .next (if x.cur.walk.isNone ∧ y.cur.walk.isSome ∧ x.crockFullAt (dieOf x.coreNo) u.part then
          s.stalled x (.seal d k) else s.raises y fault)) ∧
      (∀ y m (collided : Bool), c = none → (collided = false ∧ x.indexed name = none ∨
          ∃ q e, x.indexed name = some (q, e) ∧ (collided = false ∧ (e.state = .evicting ∨ e.state ≠ .sealed ∧ x.nodeKey e = key) ∨
            collided = true ∧ e.state ≠ .evicting ∧ x.nodeKey e ≠ key)) →
        x.publish x.ib (x.walker u 4 .seal) (BitVec.ofNat 64 (0x00FF000000000000 + r)) = (y, none) → y.node r = some m →
        ∃ z, exec (.seal d k) s = .next (s.passed z) ∧ z.cur.getN d.toNat = .node r (z.gen r) ∧
          z.node r = some { m with
            name := name, tokens := tokens, state := .sealed, collided := collided, lastRelease := if m.raised then m.lastRelease else y.now
            leaseExpiry := later m ((y.request m.part r 128).now + y.defaultLease u.part) } ∧
          z.index = (if collided then y.index else y.index.filter (fun e => decide (e.1 ≠ name)) ++ [(name, r)]) ∧
          (collided = true → (z.part u.part).collideCount = if (y.part u.part).collideCount = 0xFFFFFFFF then 0xFFFFFFFF
            else (y.part u.part).collideCount + 1)))) ∧
  (∀ (s : State) (b r : Nat) (f : NodeFetch) (rest : List NodeFetch) (n : Node) (reply : Option RemoteNode),
    (s.bank b).nfetch = f :: rest → s.liveNode f.node = some (r, n) → 0 < f.reg → f.reg < 64 →
    let i : Instr := .nfetchComplete b reply
    let ends := fun (P : State → BitVec 64 → Prop) => Answers i s (fun t => P t (SMap.get 0 (t.bank b).s f.reg) ∧ (t.bank b).nfetch = rest ∧
      (t.bank b).pend = eraseOne f.reg (s.bank b).pend)
    let frames := s.allocate n.part 1 (pageCount n.shape (4 * 2 ^ n.bcode.toNat) + 1) s.nodeFuel
    (n.state ≠ .remote → ends (fun _ v => v = status n (if n.collided then 0x18 else 0))) ∧
    (n.state = .remote → ∀ z,
      (frames = (z, .waits) → exec i s = .next z) ∧
      (frames = (z, .none) → ends (fun _ v => v = status n 0x17)) ∧
      (∀ q m pages r' n', frames = (z, .got q (m :: pages)) → z.liveNode f.node = some (r', n') →
        let holders := (match z.probe (z.nodeKey n) with | some e => e.holders | none => []).length
        let got := if s.linked then reply else none
        (got = none → f.tried + 1 < holders → exec i s = .next (z.setBank b { z.bank b with nfetch := { f with tried := f.tried + 1 } :: rest })) ∧
        (got = none → holders ≤ f.tried + 1 → ends (fun _ v => v = status n' 0x17)) ∧
        (∀ k, got = some k → (holders ≤ f.tried ∨ k.key ≠ z.nodeKey n') → ends (fun _ v => v = status n' 0x17)) ∧
        (∀ k m', got = some k → f.tried < holders → k.key = z.nodeKey n' → (z.replicate r' n' m pages k).node r' = some m' →
          ends (fun t v => v = status m' 0 ∧ t.node r' = some m'))))) ∧
  (∀ (s : State) (name : BitVec 128) (add : Bool) (device : Nat) (entry : NameKey),
    (s.linked = false → exec (.forwardedRead name) s = .next s ∧ exec (.remoteProbe name) s = .next s ∧
      exec (.holderRegistration add device entry) s = .next s) ∧
    (s.linked = true →
    (∀ r n, s.indexed name = some (r, n) → n.state = .sealed →
      exec (.forwardedRead name) s = .next ((s.sendNode n).signal (.forward (some ((s.sendNode n).remoteNode n))))) ∧
    ((∀ r n, s.indexed name = some (r, n) → n.state ≠ .sealed) → exec (.forwardedRead name) s = .next (s.signal (.forward none))) ∧
    exec (.remoteProbe name) s = .next (s.signal (.probeAnswer (s.directory.filter (fun e => e.key.name == name)))) ∧
    (∀ e rest, s.directory = e :: rest → e.key = entry →
      exec (.holderRegistration true device entry) s = .next (if device ∈ e.holders ∨ 16 ≤ e.holders.length then s
        else { s with directory := { e with holders := e.holders ++ [device] } :: rest }) ∧
      (∀ kept, kept = e.holders.filter (· ≠ device) →
        exec (.holderRegistration false device entry) s =
          .next { s with directory := if kept = [] then rest else { e with holders := kept } :: rest })) ∧
    (s.directory = [] → exec (.holderRegistration true device entry) s = .next { s with directory := [{ key := entry, holders := [device] }] }) ∧
    (s.directory = [] → add = false → exec (.holderRegistration add device entry) s = .next s)))

/-- AXBEGIN with a region open, or whose span ends before its descriptor or off its issue unit, raises AX. With a well-formed descriptor and an AXEND at its end, and nothing to wait for, it opens the region; it waits while the Churn has before it captures, or another bank's AXBEGIN, or may still get some in the fabric cycle in which it arrived. It opens it plain with enable 0 or an INVALID slot, capturing in OBSERVE, TRAIN and FALLBACK, checking or substituting in SUBSTITUTE by its count, once cached copies of regions no longer in SUBSTITUTE are dropped; with no slot and a free one it makes the lowest. AXEND outside its region raises AX; otherwise it closes the region and sends, in the Churn's order, the samples of the latched lanes whose values are finite. A capture, once nothing can come before it any more, moves the slot as the table of R340 gives. AXINV frees every slot of the address, AXSTAT reports the lowest on the die. (The substituting AXBEGIN's transfer past AXEND without an end test, member 0's inputs and thresholds, late captures, the cycle a capture counts as taken in and when stale copies are dropped are the model's choices: log 39.) -/
def Obligations.RegionsOfTheChurn : Prop :=
  let ax := fun (s y : State) (i : Instr) (v : BitVec 64) => exec i s = .next (s.raises y { code := 0x1E, info := v })
  (∀ (s : State) (o : BitVec 24) (u : WorkUnit), s.cur.unit = some u → s.cur.width = u.width → u.member = 0 →
    let i : Instr := .axbegin o
    let pc := s.cur.pc
    let ub := BitVec.ofNat 64 (4 * s.cur.width)
    let e := bits64 (pc.toNat + 4 * o.toInt)
    (s.cur.latch.isSome = true → ax s s i pc) ∧
    (s.cur.latch = none → ((e - pc).toInt < 0 ∨ (e - pc).toNat < ub.toNat + 16 ∨ (e - pc).toNat % ub.toNat ≠ 0) → ax s s i pc) ∧
    (∀ (s1 s2 s3 : State) (desc others ends : List (BitVec 32)), s.cur.latch = none →
      ¬ ((e - pc).toInt < 0 ∨ (e - pc).toNat < ub.toNat + 16 ∨ (e - pc).toNat % ub.toNat ≠ 0) →
      s.fetchWords (pc + ub) 4 = (s1, .ok desc) → s1.fetchWords (pc + 4) (s.cur.width - 1) = (s2, .ok others) →
      s2.fetchWords e s.cur.width = (s3, .ok ends) →
      let region := regionOf (desc.flatMap (fun w => toBytes 4 w.toNat))
      ((region = none ∨ ends.headD 0 ≠ 0xB1000000 ∨ ∃ w ∈ ends.drop 1 ++ others, w ≠ 0) → ax s s3 i pc) ∧
      (∀ g, region = some g → ends.headD 0 = 0xB1000000 → (∀ w ∈ ends.drop 1 ++ others, w = 0) →
        s3.cur = s.cur → s3.ib = s.ib →
        s3.free (g.consts.map (BitVec.ofNat 6)) = true →
        s3.vectorsBusy (g.ins ++ if g.pred = 0 then [] else [100 + g.pred]) [] = false →
        let die := dieOf s3.coreNo
        let lanes := s3.regionLanes g.ins g.pred
        let opens := fun (y : State) (mode : AxMode) (slot stamp : Nat) (yhat : List (List Lane)) =>
          exec i s = .next (s.jumped (y.groupBanks.foldl (fun (z : State) b => z.setBank b { (z.bank b) with latch := some {
            mode := mode, endPc := e, start := pc, die := die, slot := slot, stamp := stamp, width := s.cur.width, outs := g.outs, lanes := lanes
            yhat := yhat } }) y) (pc + ub + 16))
        (s.cur.axEnable = false → ∃ k stamp, opens s3 .plain k stamp []) ∧
        (∀ s4 page, s.cur.axEnable = true → s3.walk u.part u.asid pc { user := decide (s.cur.level = 0), exec := true } = (s4, .ok page) →
          s4 = s3 →
          (s3.churnWaits die (s3.reached die i) s3.ib = true → exec i s = .next (s.stalled s3 i)) ∧
          (s3.churnWaits die (s3.reached die i) s3.ib = false →
            (s3.spanFrames u { user := decide (s.cur.level = 0), exec := true } pc ((e - pc).toNat + 4)).1 = s3 →
          let x := s3.dropStale die
          let found := s3.slotOf die u.part (page.at pc) (digestOf (g.consts.map (fun k => s3.reg (BitVec.ofNat 6 k))))
          (∀ k c, found = some (k, c) → c.state = .invalid → ∃ stamp, opens x .plain k stamp []) ∧
          (∀ k c, found = some (k, c) → (c.state = .observe ∨ c.state = .train ∨ c.state = .fallback) →
            opens x .capture k c.stamp []) ∧
          (∀ k c, found = some (k, c) → c.state = .substitute → c.count.toNat % 2 ^ c.sample = 0 →
            let y := (x.setSlot die k (some { c with count := c.count + 1 })).cacheSurrogate (64 * die + k)
            opens y .check k c.stamp (lanes.map (fun x => surr (layersOf c.dims c.params) x.2))) ∧
          (∀ k c, found = some (k, c) → c.state = .substitute → c.count.toNat % 2 ^ c.sample ≠ 0 → s3.vectorsBusy [] g.outs = false →
            let y := (x.setSlot die k (some { c with count := c.count + 1 })).cacheSurrogate (64 * die + k)
            exec i s = .next (s.jumped (y.writeOutputs g.outs (lanes.map (fun x => (x.1, surr (layersOf c.dims c.params) x.2)))) (e + ub))) ∧
          (found = none → (∀ k < 64, (s3.slot die k).isSome = true) → ∃ k stamp, opens x .plain k stamp []) ∧
          (∀ k, found = none → k < 64 → s3.slot die k = none → (∀ j < k, (s3.slot die j).isSome = true) →
            (s.cur.fitOk = false → ax s x i pc) ∧
            (s.cur.fitOk = true → ∃ c y, opens y .capture k c.stamp [] ∧ y.slot die k = some c ∧ c.state = .observe ∧ c.part = u.part ∧
              c.pa = page.at pc ∧ c.buffer = [] ∧ c.steps = 0 ∧ c.fallbacks = 0 ∧ c.batch = s.cur.axBatch.toNat ∧ c.window = s.cur.axWindow.toNat ∧
              c.epsAbs = s.cur.axEpsAbs ∧ c.epsRel = s.cur.axEpsRel ∧ c.lr = s.cur.axLr ∧ c.sample = s.cur.axSample.toNat ∧
              c.limit = s.cur.axLimit.toNat ∧ c.ni = g.ins.length ∧ c.no = g.outs.length ∧
              (∀ d j, (d ≠ die ∨ j ≠ k) → j < 64 → k < 64 → y.slot d j = s3.slot d j)))))))) ∧
  (∀ s : State,
    (s.cur.latch = none → ∃ v, ax s { s with freeNo := s.freeNo + 1 } .axend v) ∧
    (∀ l, s.cur.latch = some l → (s.cur.pc ≠ l.endPc ∨ s.cur.width ≠ l.width) → ax s s .axend l.start) ∧
    (∀ l, s.cur.latch = some l → s.cur.pc = l.endPc → s.cur.width = l.width → s.cur.memberNo % s.cur.width = 0 → s.vectorsBusy l.outs [] = false →
      let close := fun (y : State) => y.groupBanks.foldl (fun (z : State) b => z.setBank b { (z.bank b) with latch := none }) y
      let sent := SMap.get [] s.captures l.die
      ((l.mode = .plain ∨ l.mode = .substitute) → exec .axend s = .next (s.passed (close s))) ∧
      ((l.mode = .capture ∨ l.mode = .check) → 16 ≤ sent.length → exec .axend s = .next (s.stalled s .axend)) ∧
      ((l.mode = .capture ∨ l.mode = .check) → sent.length < 16 →
        ∃ k y, exec .axend s = .next (s.passed (close y)) ∧ y = { s with captures := SMap.set [] s.captures l.die (insertCapture k sent) } ∧
          k.bank = s.ib ∧ k.time = s.fabric ∧ k.slot = l.slot ∧ k.stamp = l.stamp ∧ k.check = (l.mode == .check) ∧
          k.samples = ((l.lanes.zip (s.latchedOutputs l)).filter (fun p => (p.1.2 ++ p.2.2).all isFinite)).map (fun p => (p.1.2, p.2.2)) ∧
          (∀ c, s.slot l.die l.slot = some c → c.stamp = l.stamp →
            (k.failed = true ↔ l.mode = .check ∧ ∃ p ∈ l.yhat.zip (s.latchedOutputs l), c.allMeet p.1 p.2.2 = false))))) ∧
  (∀ (k : Capture) (xs ys : List Capture), (∀ x ∈ xs, x.time < k.time ∨ x.time = k.time ∧ x.bank ≤ k.bank) →
    (∀ y ∈ ys, k.time < y.time ∨ k.time = y.time ∧ k.bank < y.bank) → insertCapture k (xs ++ ys) = xs ++ k :: ys) ∧
  (∀ (s : State) (die : Nat) (k : Capture) (ks : List Capture) (c : ChurnSlot), SMap.get [] s.captures die = k :: ks →
    s.slot die k.slot = some c →
    let first := k.time < s.fabric ∧ s.beginFirst die k.time k.bank = false
    (¬ first → exec (.churnCapture die) s = .next s) ∧
    (first → c.stamp ≠ k.stamp → exec (.churnCapture die) s = .next { s with captures := SMap.set [] s.captures die ks }) ∧
    (first → c.stamp = k.stamp → Answers (.churnCapture die) s (fun t =>
      SMap.get [] t.captures die = ks ∧ t.mem = s.mem ∧ t.banks = s.banks ∧
      ∃ d, t.slot die k.slot = some d ∧ d.buffer = (c.buffer ++ k.samples).drop ((c.buffer ++ k.samples).length - 4096) ∧
        let full := { c with buffer := d.buffer }
        (c.state = .observe → d.buffer.length < c.batch → d = full) ∧
        (c.state = .fallback → (k.check && k.failed) = true → d = full) ∧
        ((c.state = .observe ∧ c.batch ≤ d.buffer.length) ∨ c.state = .train ∨ c.state = .fallback ∧ (k.check && k.failed) = false →
          d.params = full.stepped ∧ d.steps = c.steps + 1 ∧
          ((∃ p ∈ d.params, isFinite p = false) → d.state = .invalid) ∧
          ((∀ p ∈ d.params, isFinite p = true) → { full with params := d.params }.accepted = true → d.state = .substitute ∧ d.count = 0) ∧
          ((∀ p ∈ d.params, isFinite p = true) → { full with params := d.params }.accepted = false →
            d.state = if c.state = .fallback then .fallback else .train)) ∧
        (c.state = .substitute → (k.check && k.failed) = false → d = full) ∧
        (c.state = .substitute → (k.check && k.failed) = true → d = { full with
          fallbacks := c.fallbacks + 1
          state := if c.fallbacks + 1 < c.limit ∨ c.limit = 0 then .fallback else .invalid }) ∧
        (c.state = .invalid → d = full)))) ∧
  (∀ (s y : State) (a d : BitVec 6) (u : WorkUnit) (g : Page), s.free [d, a] = true → s.cur.unit = some u →
    let va := s.reg a
    let i : Intent := { user := decide (s.cur.level = 0), exec := true }
    (va.toNat % 4 ≠ 0 → exec (.axinv a) s = .next (s.raises s { code := 0x08, info := va }) ∧
      exec (.axstat d a) s = .next (s.raises s { code := 0x08, info := va })) ∧
    (va.toNat % 4 = 0 → s.walk u.part u.asid va i = (y, .ok g) →
      (∃ z, exec (.axinv a) s = .next (s.passed z) ∧ z = { y with churn := z.churn } ∧
        (∀ e ∈ z.churn, ∀ c, e.2 = some c → ¬ (c.part = u.part ∧ c.pa = g.at va)) ∧
        (∀ e ∈ y.churn, (∀ c, e.2 = some c → ¬ (c.part = u.part ∧ c.pa = g.at va)) → e ∈ z.churn)) ∧
      (y.ib = s.ib → y.coreNo = s.coreNo →
        let die := dieOf s.coreNo
        let hits := (List.range 64).filter (fun k => match y.slot die k with | some c => decide (c.part = u.part ∧ c.pa = g.at va) | none => false)
        (hits = [] → exec (.axstat d a) s = .next (s.passed (y.setReg d 0))) ∧
        (∀ k ks c, hits = k :: ks → y.slot die k = some c →
          let state : Nat := match c.state with | .observe => 1 | .train => 2 | .substitute => 3 | .fallback => 4 | .invalid => 5
          exec (.axstat d a) s = .next (s.passed (y.setReg d (BitVec.ofNat 64 (min c.steps 524287 * 2 ^ 45 + c.buffer.length * 2 ^ 32 +
            hits.length * 2 ^ 24 + min c.fallbacks 255 * 2 ^ 16 + 2 ^ 15 + k * 2 ^ 8 + state)))))))) ∧
  (∀ (l : Layer) (ls : List Layer) (x : List Lane),
    surr [l] x = l.sums x ∧ (ls ≠ [] → surr (l :: ls) x = surr ls ((l.sums x).map relu)) ∧ (l.sums x).length = l.m ∧
    (∀ j < l.m, (l.sums x).getD j 0 = (List.range l.n).foldl (fun z k => (fmaF (l.w.getD (j * l.n + k) 0) (x.getD k 0) z false false 0).1)
      (l.c.getD j 0)))

/-- When some member waits for a page and every cluster of the unit is on bank A at rest, the drain ends the lease, sets the queued operations of each cluster aside in order, makes bank B active with empty queues, and each bank B pops the first qualifying of its first 9 records; otherwise it changes nothing. With no member waiting and every bank B empty, the unit's clusters go back to bank A with the queues and halts as they were set aside. RETRY takes the request away and walks the handle again, FAIL marks the wait failed, with the last answer the commit point moves by the ticks of the wait, and an id that is not outstanding changes nothing. A request unanswered for the page limit gets a second record and FAIL. (The drain that sets all aside in one step, the credit of the commit budget up to the last answer, and the content of the second record are the model's choices: log 49.) -/
def Obligations.PageFaultsSwitchBanks : Prop :=
  (∀ (s : State) (cl : Nat) (u : WorkUnit), s.unitA cl = some u →
    (s.mustDrain u = true → (∀ k ∈ u.clusters, s.activeBank k = 2 * k ∧ s.atRest k = true) →
      exec (.pageFaultDrain cl) s = .next (u.clusters.foldl (fun (y : State) k => y.popB u.part k)
        (u.clusters.foldl (fun (y : State) k => y.setAside k) (s.endLease (2 * cl))))) ∧
    (s.mustDrain u = false ∨ (∃ k ∈ u.clusters, s.activeBank k ≠ 2 * k ∨ s.atRest k = false) → exec (.pageFaultDrain cl) s = .next s)) ∧
  (∀ (s : State) (cl : Nat), s.unitA cl = none → exec (.pageFaultDrain cl) s = .next s) ∧
  (∀ (s : State) (cl : Nat) (w : PageWait), (s.bank (2 * cl)).page = some w →
    let c := s.cluster cl
    let t := s.setAside cl
    let r := t.restore cl
    t = { s with banks := t.banks, clusters := t.clusters } ∧
    (∀ k, k ≠ 2 * cl → t.bank k = s.bank k) ∧ (∀ k, k ≠ cl → t.cluster k = s.cluster k) ∧
    t.cluster cl = { c with activeB := true, qL := [], qC := [], qS := [], haltL := false, haltC := false, haltS := false, packets := [] } ∧
    t.bank (2 * cl) = { s.bank (2 * cl) with
      aside := c.qL.map (fun e => (.L, e)) ++ c.qC.map (fun e => (.C, e)) ++ c.qS.map (fun e => (.S, e))
      halts := (c.haltL, c.haltC, c.haltS)
      page := some { w with drained := true } } ∧
    (r.cluster cl).activeB = false ∧ (r.cluster cl).qL = c.qL ∧ (r.cluster cl).qC = c.qC ∧ (r.cluster cl).qS = c.qS ∧
    (r.cluster cl).haltL = c.haltL ∧ (r.cluster cl).haltC = c.haltC ∧ (r.cluster cl).haltS = c.haltS ∧
    r.bank (2 * cl) = { s.bank (2 * cl) with
      aside := []
      halts := (false, false, false)
      page := if w.failed then some { w with drained := true, resumed := true } else none
      waits := none
      watch := none
      progress := s.now }) ∧
  (∀ (s : State) (p cl : Nat),
    (s.coreIn p (cl / 4) = false ∨ (s.cluster cl).activeB = false ∨ (s.bank (2 * cl + 1)).unit.isSome = true ∨ s.resumeDue cl = true →
      s.popB p cl = s) ∧
    (∀ u, s.unitA cl = some u → (s.resumeDue cl = true ↔
      s.awaitsPage cl = false ∧ ∀ i < u.width, (s.bank (2 * (u.base + i) + 1)).unit = none)) ∧
    (∀ (ws vs : List Waiting) (w : Waiting), s.coreIn p (cl / 4) = true → (s.cluster cl).activeB = true → (s.bank (2 * cl + 1)).unit = none →
      s.resumeDue cl = false →
      (s.orderOf p).filter (fun x => !s.recordCancelled p x.crec) = ws ++ w :: vs → ws.length < 9 →
      let ok := fun (x : Waiting) => x.crec.width = 1 ∧ x.crec.bankBOk = true ∧ s.affinityBlocks p x (cl / 4) = false ∧ x.reserved = none
      (∀ x ∈ ws, ¬ ok x) → ok w → s.popB p cl = (s.removeWaiting p w).startUnit p w cl true)) ∧
  (∀ (s : State) (cl : Nat),
    let g := s.resumeGroup cl
    ((s.cluster cl).activeB = true → s.awaitsPage cl = false → (∀ k ∈ g, (s.bank (2 * k + 1)).unit = none) →
      exec (.bankAResume cl) s = .next (g.foldl (fun (y : State) k => y.restore k) s)) ∧
    ((s.cluster cl).activeB = false ∨ s.awaitsPage cl = true ∨ (∃ k ∈ g, (s.bank (2 * k + 1)).unit.isSome = true) →
      exec (.bankAResume cl) s = .next s) ∧
    (∀ u, s.unitA cl = some u → g = u.clusters.filter (fun k => (s.cluster k).activeB)) ∧
    (∀ (u : WorkUnit) (w : PageWait) (k : Nat) (v : WorkUnit), s.unitA cl = some u → u.width = 1 → u.base = cl → (s.bank (2 * cl)).page = some w →
      (s.bank k).unit = some v → v.id = u.id →
      (w.ids ≠ [] → s.creditWait cl = s) ∧
      (w.ids = [] → ((s.creditWait cl).bank k).unit = some { v with
        commitTime := if w.counted then v.commitTime else v.commitTime + (s.now - w.since) } ∧
        ((s.creditWait cl).bank (2 * cl)).page = some { w with counted := true }))) ∧
  (∀ (s : State) (p id : Nat), (∀ q ∈ (s.part p).requests, q.id ≠ id) →
    exec (.pageAnswerRetry p id) s = .next s ∧ exec (.pageAnswerFail p id) s = .next s ∧ exec (.pageRequestTimeout p id) s = .next s) ∧
  (∀ (s : State) (p id : Nat) (q : PageRequest), (s.part p).requests.find? (fun r => decide (r.id = id)) = some q →
    let left := (s.part p).requests.filter (fun r => decide (r.id ≠ id))
    let told := fun (fail : Bool) => (s.part p).answers.map (fun a => if a.request = id then { a with answered := true, failed := fail } else a)
    let base := fun (fail : Bool) => s.setPart p { s.part p with requests := left, answers := told fail }
    let credited := fun (y : State) => if q.bank % 2 = 0 then y.creditWait (q.bank / 2) else y
    (q.copy = false → ∀ w : PageWait, (s.bank q.bank).page = some w → w.resumed = false → id ∈ w.ids →
      let rest := w.ids.filter (fun k => decide (k ≠ id))
      let done := q.bank % 2 = 1 ∧ rest = []
      (∃ b : Bank, exec (.pageAnswerRetry p id) s = .next (credited ((base false).setBank q.bank b)) ∧
        b = { s.bank q.bank with h := b.h, page := b.page, progress := if done then s.now else (s.bank q.bank).progress } ∧
        b.page = (if done ∧ w.failed = false then none else some { w with ids := rest, resumed := decide done }) ∧
        (w.handle ≠ 0 → ((s.bank q.bank).handle w.handle).state = .fault 0x07 → (b.handle w.handle).state = .pending ∧
          (b.handle w.handle).va = ((s.bank q.bank).handle w.handle).va)) ∧
      exec (.pageAnswerFail p id) s = .next (credited ((base true).setBank q.bank { s.bank q.bank with
        page := some { w with ids := rest, failed := true, resumed := decide done }
        progress := if done then s.now else (s.bank q.bank).progress }))) ∧
    (q.copy = true →
      Answers (.pageAnswerRetry p id) s (fun t => t.part p = { s.part p with requests := left, answers := told false }) ∧
      exec (.pageAnswerFail p id) s = .next (base true)) ∧
    (let x := s.part p
     (x.pageLimit = 0 ∨ (s.now - q.time).toNat < x.pageLimit.toNat * 1000 → exec (.pageRequestTimeout p id) s = .next s) ∧
     (x.pageLimit ≠ 0 → x.pageLimit.toNat * 1000 ≤ (s.now - q.time).toNat → exec (.pageRequestTimeout p id) s =
       .next ((s.faultRecord p (recordBytes 0x07 0x50 q.job q.wher q.seq (q.bank / 8) 0 q.pc q.va 0 q.launch q.graph q.phase s.now id)).answerPage
         p id true))))

/-- An acted-on notify line reads the records from job_head to job_tail, or rejects a count above 256. Admission takes only HBM and the tier, rejects the first failed check of R47 by its code, and otherwise admits the job and enqueues its first record. A host write that would touch a sealed object or a tagged header is discarded and logged; any other writes its bytes and clears the tags of its words. Host and peer reads give the bytes, or report what they meet; a peer's atomic is one step at its home. The scrubber mends a corrected sector and poisons the line of a bad one. HARVEST, REVOKE and REVOKE_ALL do what R238 says unless a command is busy, and busy clears when the accesses are complete, the handles made since then going as well. A cleared fail bit of sp_failed reads 1 until its rebuild ends; a write of vat_idle restarts the count; a VF reset cancels every job and zeroes the five registers. (The model's choices: what REVOKE does at the write and without a leaf, log 32; the bank number of sp_failed that stands at once, log 35; a notify with nothing to act on and the code for ranges in host or peer memory, log 45; a peer's synchronising access and atomic in one step, log 46; the scrubber's two steps, log 54; the fault and addresses of rejected jobs, log 64.) -/
def Obligations.JobsHostTrafficAndHarvest : Prop :=
  let sound := fun (s : State) (pa n : Nat) => ∀ l ∈ linesOf pa n, ∀ k ∈ s.blockLines l, SMap.get false s.badMetaBlocks k = false
  (∀ (s : State) (slot : Nat),
    (s.boundTo slot = none ∨ SMap.get false s.notified slot = false → exec (.jobRingNotify slot) s = .next s) ∧
    (∀ p, s.boundTo slot = some p → SMap.get false s.notified slot = true →
      let x : State := { s with notified := SMap.set false s.notified slot false }
      let m := (x.touchMbox slot 0).agentSync (s.regionBase slot) 5 1000
      let y := m.touchMbox slot 0x100
      let d := (x.mbox32 slot 0 - m.mbox32 slot 0x100).toNat
      (d = 0 → exec (.jobRingNotify slot) s = .next y) ∧
      (0 < d → d ≤ 256 → exec (.jobRingNotify slot) s = .next (y.readRing p slot d)) ∧
      (256 < d → exec (.jobRingNotify slot) s = .next (y.rejectJob p 0x11 0 0xFF 0 0 0 0))) ∧
    (∀ p n, let a := s.regionBase slot
      let entry := a + 0x10000 + 128 * ((s.mbox32 slot 0x100).toNat % 256)
      s.behind (a + 0x100) = true → s.fillFault (a + 0x100) 4 = (s, none) → s.behind entry = true → s.fillFault entry 128 = (s, none) →
      s.readRing p slot (n + 1) =
        ((s.setMbox32 slot 0x100 (s.mbox32 slot 0x100 + 1)).admission p (JobRecord.of (s.bytes entry 128))).readRing p slot n)) ∧
  (∀ (s : State) (p : Nat) (r : JobRecord),
    let reject := fun (y : State) (c : Code) (va : BitVec 64) => y.rejectJob p c va r.slot r.job.seq r.first.launch r.first.graph r.first.phase
    let malformed := r.format ≠ 1 ∨ bits r.flags 2 6 ≠ 0 ∨ 64 ≤ r.slot ∨ (s.job p r.slot).isSome = true ∨ 16 < r.job.graphLog2 ∨ 24 < r.job.launchLog2
    let look := s.asidValid p r.job.asid
    let known := (s.part p).groups = 0 ∨ look.2 = true
    let aligned := r.job.ctx.toNat % 4096 = 0 ∧ r.frameVa.toNat % 16 = 0 ∧ r.job.doneOff.toNat % 8 = 0
    (malformed → s.admission p r = reject s 0x11 0) ∧
    (¬ malformed → (s.part p).groups ≠ 0 → look.2 = false → s.admission p r = reject look.1 0x06 r.job.ctx) ∧
    (¬ malformed → known → ¬ aligned → ∃ va, s.admission p r = reject (if (s.part p).groups = 0 then s else look.1) 0x08 va) ∧
    (∀ (y : State) (g : Page) (va : BitVec 64), s.walk p r.job.asid va { write := true } = (y, .ok g) →
      s.rangePage p r.job.asid va = (y, if memKind g.frame = .hbm ∨ memKind g.frame = .tier then none else some 0x06)) ∧
    (¬ malformed → aligned → (s.part p).groups = 0 → s.admission p r = reject s 0x07 r.job.ctx) ∧
    (∀ y c va, s.checkJob p r = (y, c, va) → c ≠ 0 → s.admission p r = reject y c va) ∧
    (∀ y z va, s.checkJob p r = (y, 0, va) → y.admitJob p r = some z → s.admission p r = z ∧
      ∃ x : State, x.job p r.slot = some r.job ∧
        z = x.enqueue p { r.first with w1 := if r.frameSize = 0 then 0 else r.frameVa, tag := decide (r.frameSize ≠ 0) } 0 1 r.job.asid)) ∧
  (∀ (s : State) (pa : Nat) (bs : List Byte), bs ≠ [] → s.behind pa = true → s.behind (pa + bs.length - 1) = true →
    let n := bs.length
    (s.sealedAt pa n = true ∨ s.headerAt pa n = true →
      Answers (.hostMemoryWrite pa bs) s (fun t => t = s.ras pa 10 2 (s.partOfPa pa) ∧ t.mem = s.mem ∧ t.tags = s.tags)) ∧
    (s.sealedAt pa n = false → s.headerAt pa n = false → s.writeFault pa n = (s, none) → sound s pa n →
      Answers (.hostMemoryWrite pa bs) s (fun t =>
        (∀ k < n, t.byte (pa + k) = bs.getD k 0) ∧ (∀ p, p < pa ∨ pa + n ≤ p → t.byte p = s.byte p) ∧
        (∀ p, pa / 8 ≤ p / 8 → p / 8 ≤ (pa + n - 1) / 8 → t.tagAt p = false) ∧
        (∀ p, p / 8 < pa / 8 ∨ (pa + n - 1) / 8 < p / 8 → (isHbm p = true → s.liveAt p = true) → t.tagAt p = s.tagAt p) ∧
        (∀ k < 32, (s.boundTo k).isSome = true → s.behind (s.regionBase k) = true → (linesOf pa n).contains (s.regionBase k / 128) = true →
          SMap.get false t.notified k = true) ∧
        t.cores = s.cores ∧ t.clusters = s.clusters ∧ t.parts = s.parts ∧ t.jobs = s.jobs))) ∧
  (∀ (s y : State) (pa n : Nat), n ≠ 0 → s.behind pa = true → s.behind (pa + n - 1) = true →
    (s.readFault pa n = (y, none) → exec (.hostMemoryRead pa n) s = .next (y.signal (.hostData (y.bytes pa n)))) ∧
    (∀ c, s.readFault pa n = (y, some c) → exec (.hostMemoryRead pa n) s = .next (y.signal .hostPoison))) ∧
  (∀ (s y : State) (pa n : Nat) (bs : List Byte) (tags : List Bool), isHbm pa = true → s.behind pa = true → s.linked = true →
    (n ≠ 0 → s.behind (pa + n - 1) = true →
      (∀ c z, s.objectFault none pa n false = some c → exec (.peerMemoryRequest pa n { tags := tags, sync := z }) s = .next (s.signal (.peerFault c))) ∧
      (s.objectFault none pa n false = none →
        (s.readFault pa n = (y, none) →
          exec (.peerMemoryRequest pa n { tags := tags }) s = .next (y.signal (.peerData (y.bytes pa n) ((wordAddrs pa n).map y.tagAt)))) ∧
        (∀ c, s.readFault pa n = (y, some c) → exec (.peerMemoryRequest pa n { tags := tags }) s = .next (y.signal (.peerFault c))) ∧
        (∀ z : PeerSync,
          let trapped := s.mismatches (z.device, z.core) z.scope pa = true ∧ z.mode = 2
          (trapped → exec (.peerMemoryRequest pa n { tags := tags, sync := some z }) s = .next (s.signal (.peerFault 0x0E))) ∧
          (¬ trapped → s.readFault pa n = (y, none) → exec (.peerMemoryRequest pa n { tags := tags, sync := some z }) s =
            .next ((y.signal (.peerData (y.bytes pa n) ((wordAddrs pa n).map y.tagAt))).recordScope (pa / 128) z.scope (z.device, z.core))) ∧
          (∀ c, ¬ trapped → s.readFault pa n = (y, some c) →
            exec (.peerMemoryRequest pa n { tags := tags, sync := some z }) s = .next (y.signal (.peerFault c)))))) ∧
    (∀ (x : PeerAtom) (k : Nat), k = (if n = 4 then 4 else 8) → s.behind (pa + k - 1) = true → s.objectFault none pa k true = none →
      (s.crockFails pa = true →
        exec (.peerMemoryRequest pa n { tags := tags, atom := some x }) s = .next ((s.clearCrock pa).signal (.peerFault 0x19))) ∧
      (s.crockFails pa = false → s.writeFault pa k = (s, none) → s.readFault pa k = (s, none) →
        let old := bits64 (sextNat (ofBytes (s.bytes pa k)) (8 * k))
        let signed := fun (v : BitVec 64) => sextNat v.toNat (8 * k)
        let gives := fun (v : BitVec 64) => exec (.peerMemoryRequest pa n { tags := tags, atom := some x }) s =
          .next ((s.store (cellsAt pa (toBytes k v.toNat))).signal (.peerData (s.bytes pa k) []))
        (x.op = .add → gives (old + x.operand)) ∧ (x.op = .and → gives (old &&& x.operand)) ∧ (x.op = .or → gives (old ||| x.operand)) ∧
        (x.op = .xor → gives (old ^^^ x.operand)) ∧ (x.op = .min → gives (if signed x.operand < signed old then x.operand else old)) ∧
        (x.op = .max → gives (if signed old < signed x.operand then x.operand else old)) ∧ (x.op = .swp → gives x.operand) ∧
        (x.op = .cas → signed old = signed x.operand → gives x.new) ∧
        (x.op = .cas → signed old ≠ signed x.operand → exec (.peerMemoryRequest pa n { tags := tags, atom := some x }) s =
          .next (s.signal (.peerData (s.bytes pa k) []))))) ∧
    (bs ≠ [] → s.behind (pa + bs.length - 1) = true →
      (∀ c z, s.objectFault none pa bs.length true = some c →
        exec (.peerMemoryRequest pa n { store := some bs, tags := tags, sync := z }) s = .next (s.signal (.peerFault c))) ∧
      (s.objectFault none pa bs.length true = none → s.writeFault pa bs.length = (s, none) → sound s pa bs.length →
        Answers (.peerMemoryRequest pa n { store := some bs, tags := tags }) s (fun t =>
          (∀ k < bs.length, t.byte (pa + k) = bs.getD k 0) ∧ (∀ p, p < pa ∨ pa + bs.length ≤ p → t.byte p = s.byte p) ∧
          (∀ x ∈ (wordAddrs pa bs.length).zip tags, isHbm x.1 = true → pa ≤ x.1 → x.1 + 8 ≤ pa + bs.length → t.tagAt x.1 = x.2))))) ∧
  (∀ (s : State) (line : Nat), s.scrubs.find? (fun x => x.line == line) = none →
    let pa := 128 * line
    let looks := s.mgmt.scrubEnable = true ∧ isHbm pa = true ∧ s.behind pa = true ∧ s.liveAt pa = true ∧
      (s.scrubs.filter (fun x => decide (128 * x.line / 2 ^ 36 = pa / 2 ^ 36))).length < 4
    let stored := (s.lineInfo line).enc
    let has := fun (m : SMap Bool) => (List.range (if stored = 7 then 4 else storedSectors stored)).any (fun k => SMap.get false m (4 * line + k))
    (¬ looks → exec (.patrolScrub line) s = .next s) ∧
    (looks → (∀ l ∈ s.blockLines line, SMap.get false s.badMetaBlocks l = false) →
      ((s.lineInfo line).poison = true → exec (.patrolScrub line) s = .next s) ∧
      ((s.lineInfo line).poison = false → exec (.patrolScrub line) s = .next (if has s.badSectors || has s.softSectors then
        { s with scrubs := s.scrubs ++ [{ line := line, bad := has s.badSectors, soft := has s.softSectors }] } else s)))) ∧
  (∀ (s : State) (line : Nat) (x : Scrub), s.scrubs.find? (fun y => y.line == line) = some x →
    let z : State := { s with scrubs := s.scrubs.filter (fun y => decide (y.line ≠ line)) }
    (x.changed = true → exec (.patrolScrub line) s = .next (if x.bad then z.ras (128 * line) 7 1 (s.partOfPa (128 * line)) else z)) ∧
    (x.changed = false → x.bad = false → Answers (.patrolScrub line) s (fun t => t.mgmt = { s.mgmt with ceFound := satInc s.mgmt.ceFound } ∧
      (∀ k < 4, SMap.get false t.softSectors (4 * line + k) = false) ∧ t.mem = s.mem ∧ t.lineMeta = s.lineMeta ∧ t.scrubs = z.scrubs)) ∧
    (x.changed = false → x.bad = true → Answers (.patrolScrub line) s (fun t => t.mgmt.ueFound = satInc s.mgmt.ueFound ∧
      (t.lineInfo line).poison = true ∧ t.mem = s.mem ∧ (∀ l, l ≠ line → t.lineInfo l = s.lineInfo l) ∧ t.mgmt.lastSource = 7 ∧
      t.scrubs = z.scrubs))) ∧
  (∀ (s : State) (w : BitVec 64),
    let p := s.partNo
    let va := bits64 (sextNat (bits w 23 41 * 65536) 57)
    let asid := w.extractLsb' 7 16
    let sets := fun (y : State) (r : BitVec 64) => { y with mgmt := { y.mgmt with harvest := (w &&& ~~~(0xF#64)) ||| r, harvestPart := p } }
    (s.mgmt.harvest.getLsbD 0 = true → exec (.harvest w) s = .next s ∧ exec (.revoke w) s = .next s ∧ exec (.revokeAll w) s = .next s) ∧
    (s.mgmt.harvest.getLsbD 0 = false →
      (∀ y g, bits w 4 3 = 1 → s.findLeaf p asid va = (y, some g) → exec (.harvest w) s = .next (sets (y.harvestPage g) 1)) ∧
      (∀ y, bits w 4 3 = 1 → s.findLeaf p asid va = (y, none) → exec (.harvest w) s = .next (sets y 5)) ∧
      (∀ y g, bits w 4 3 = 2 → s.findLeaf p asid va = (y, some g) →
        exec (.revoke w) s = .next (sets ((y.bumpGen g).revokePages p asid (fun h => !h.nxl && h.names va g.size)) 1)) ∧
      (∀ y, bits w 4 3 = 2 → s.findLeaf p asid va = (y, none) →
        exec (.revoke w) s = .next (sets (y.revokePages p asid (fun h => !h.nxl && h.names va 65536)) 1)) ∧
      (bits w 4 3 = 3 → exec (.revokeAll w) s = .next (sets (s.revokePages p asid (fun h => !h.nxl && decide (h.state ≠ .invalid))) 1))) ∧
    (let h := s.mgmt.harvest
    let q := s.mgmt.harvestPart
    let a := h.extractLsb' 7 16
    let at' := bits64 (sextNat (bits h 23 41 * 65536) 57)
    let done := h.getLsbD 0 = true ∧ (bits h 4 3 = 1 ∨ s.accessesRun q a = false)
    let clears := fun (y : State) => ({ y with mgmt := { y.mgmt with harvest := h &&& ~~~(1#64) } } : State)
    (¬ done → exec .harvestCommandDone s = .next s) ∧
    (done → bits h 4 3 = 1 → exec .harvestCommandDone s = .next (clears s)) ∧
    (∀ y g, done → bits h 4 3 = 2 → s.findLeaf q a at' = (y, g) → exec .harvestCommandDone s =
      .next (clears (y.revokePages q a (fun x => !x.nxl && x.names at' (match g with | some g => g.size | none => 65536))))) ∧
    (done → bits h 4 3 = 3 → exec .harvestCommandDone s =
      .next (clears (s.revokePages q a (fun x => !x.nxl && decide (x.state ≠ .invalid))))))) ∧
  (∀ (s : State) (g : Page) (l : Nat), g.leaf = some l →
    let lo := g.frame / 65536
    let hi := lo + g.size / 65536
    let x : State := { s with written := SMap.clear lo hi s.written }
    ((∀ e ∈ s.written, ¬ (lo ≤ e.1 ∧ e.1 < hi)) → s.harvestPage g = s) ∧
    (s.behind l = true → (∀ y ∈ [s, x], y.writeFault l 8 = (y, none)) → sound s l 8 →
      ((∃ e ∈ s.written, lo ≤ e.1 ∧ e.1 < hi) →
        (s.harvestPage g).peek64 l = (s.peek64 l ||| 0x400) ∧
        ∀ f, lo ≤ f → f < hi → f ≠ l / 65536 → f ≠ (l + 7) / 65536 → SMap.get false (s.harvestPage g).written f = false) ∧
      (s.bumpGen g).peek64 l = s.peek64 l + 0x10000000000000)) ∧
  (∀ (s : State) (p k : Nat) (asid : BitVec 16) (f : Handle → Bool) (u : WorkUnit), (s.bank k).unit = some u → u.part = p → u.asid = asid →
    ∀ e ∈ ((s.revokePages p asid f).bank k).h, ∃ h, (e.1, h) ∈ (s.bank k).h ∧
      e.2 = (if f h = false then h else if h.state = .translating ∨ h.state = .pending then { h with revoked := true } else { va := h.va })) ∧
  (∀ (s : State) (n : Nat) (w : BitVec 64),
    let c := s.core n
    let x := c.endRebuild0.endRebuild1
    let v := x.spFailed
    Answers (.spFailedWrite n w) s (fun t =>
      let d := t.core n
      t = s.setCore n d ∧ d.spad = x.spad ∧ d.spFailed.extractLsb' 16 48 = v.extractLsb' 16 48 ∧
      (v.getLsbD 5 = true → w.getLsbD 5 = false → d.rebuild0 = some (bits v 0 5) ∧ bits d.spFailed 0 8 = 32 + bits w 0 5) ∧
      (v.getLsbD 5 = false ∨ w.getLsbD 5 = true → d.rebuild0 = none ∧ bits d.spFailed 0 8 = bits w 0 6) ∧
      (v.getLsbD 13 = true → w.getLsbD 13 = false → d.rebuild1 = some (bits v 8 5) ∧ bits d.spFailed 8 8 = 32 + bits w 8 5) ∧
      (v.getLsbD 13 = false ∨ w.getLsbD 13 = true → d.rebuild1 = none ∧ bits d.spFailed 8 8 = bits w 8 6)) ∧
    (c.rebuild0 = none → c.rebuild1 = none → x = c) ∧
    (c.rebuild0 = none → exec (.scratchpadRebuildDone n false) s = .next s) ∧
    (c.rebuild1 = none → exec (.scratchpadRebuildDone n true) s = .next s) ∧
    (∀ b, c.rebuild0 = some b → Answers (.scratchpadRebuildDone n false) s (fun t => t = s.setCore n (t.core n) ∧ (t.core n).rebuild0 = none ∧
      (t.core n).spFailed = c.spFailed &&& ~~~(0x20#64) ∧ (t.core n).spad = (c.rebuild b c.usedOffsets).spad)) ∧
    (∀ b, c.rebuild1 = some b → Answers (.scratchpadRebuildDone n true) s (fun t => t = s.setCore n (t.core n) ∧ (t.core n).rebuild1 = none ∧
      (t.core n).spFailed = c.spFailed &&& ~~~(0x2000#64) ∧ (t.core n).spad = (c.rebuild b c.usedOffsets).spad)) ∧
    exec (.vatIdleWrite n w) s = .next (s.setCore n { c with vat := { c.vat with idle := w.extractLsb' 0 32, idleFrom := s.cycles } })) ∧
  (∀ (s : State) (slot : Nat),
    (s.boundTo slot = none → exec (.vfFlr slot) s = .next s) ∧
    (∀ p, s.boundTo slot = some p →
      let y := ((List.range 64).foldl (fun (y : State) j => y.cancelJob p j) s).spreadCancel
      let a := y.regionBase slot
      Answers (.vfFlr slot) s (fun t => t = [0, 0x100, 0x80, 0x104, 0x108].foldl (fun (y : State) o => y.setMbox32 slot o 0) y ∧
        ((∀ o ∈ [0, 0x100, 0x80, 0x104, 0x108], y.behind (a + o) = true ∧ y.writeFault (a + o) 4 = (y, none) ∧ sound y (a + o) 4) →
          ∀ o ∈ [0, 0x100, 0x80, 0x104, 0x108], t.bytes (a + o) 4 = [0, 0, 0, 0]))) ∧
    (∀ p j (b : Job), s.job p j = some b → let c := s.seeCounter p b .job 0
      s.cancelJob p j = c.1.setCounter p b .job 0 { c.2 with state := c.2.state ||| 2 }))

/-- A master that is present writes own_cmd: CLAIM, RELEASE, HEARTBEAT, HANDOVER and ACCEPT do what R54 says and nothing else; an owner of hb_age 10,000 lapses, with vector 0 and a notification. Any other write by a master that is not the owner only counts in refused_writes, whose reading clears it; the BMC is told ERROR. A partition command is ignored while one runs, and otherwise checked by R61: a failed check leaves only its code to report. CREATE makes the partition live with its staged registers and no island or group; DESTROY ends it and its regions, once no reader holds up a node it drops; APPLY puts what is staged in force with full buckets, once its partition's nodes have left what it loses; a moved island is cleared and zeroed before it joins; a moved group reads 0 when it joins. When a command ends, its code is reported and the vectors are raised. (When a command takes effect and what an APPLY gives up are the model's choices: log 41; so is what a moved island keeps: log 42.) -/
def Obligations.OwnershipAndPartitionCommands : Prop :=
  masterCode .pfA = 1 ∧ masterCode .pfB = 2 ∧ masterCode .bmc = 3 ∧
  (∀ (s : State) (m : Master) (target : BitVec 4) (off : Nat) (w : BitVec 64), s.booted = false ∨ s.hasMaster m = false →
    let told := if s.hasMaster m = true ∧ m = .bmc then { s with signals := s.signals ++ [.mctpError] } else s
    (∀ i ∈ ([.claim m, .release m, .heartbeat m, .handover m target, .accept m, .managementRegisterWrite m off w] : List Instr),
      exec i s = .next told) ∧
    (∀ z ∈ ([(1, .partCreate m w), (2, .partDestroy m w), (3, .moveIsland m w), (4, .moveGroup m w), (5, .partApply m w)] : List (Nat × Instr)),
      exec z.2 s = .next (if bits w 0 4 = z.1 then told else s))) ∧
  (∀ (s : State) (m : Master), s.booted = true → s.hasMaster m = true →
    let g := s.mgmt
    let c := masterCode m
    let becomes := fun (h : Mgmt) => ({ s with mgmt := h } : State)
    exec (.claim m) s = .next (if g.owner = 0 then becomes { g with owner := c, hbSince := s.now } else s) ∧
    exec (.release m) s = .next (if g.owner = c then becomes { g with owner := 0, handoverTarget := 0 } else s) ∧
    exec (.heartbeat m) s = .next (if g.owner = c then becomes { g with hbSince := s.now } else s) ∧
    (∀ t : BitVec 4, exec (.handover m t) s = .next (
      if g.owner = c ∧ t ≠ c ∧ ((t = 1 ∧ s.hasMaster .pfA = true) ∨ (t = 2 ∧ s.hasMaster .pfB = true) ∨ t = 3)
      then becomes { g with handoverTarget := t } else s)) ∧
    exec (.accept m) s = .next (if g.handoverTarget = c then becomes { g with owner := c, handoverTarget := 0, hbSince := s.now } else s) ∧
    (∀ w : BitVec 64,
      (bits w 0 4 = 1 → exec (.managementRegisterWrite m 8 w) s = exec (.claim m) s) ∧
      (bits w 0 4 = 2 → exec (.managementRegisterWrite m 8 w) s = exec (.release m) s) ∧
      (bits w 0 4 = 3 → exec (.managementRegisterWrite m 8 w) s = exec (.heartbeat m) s) ∧
      (bits w 0 4 = 4 → exec (.managementRegisterWrite m 8 w) s = exec (.handover m (w.extractLsb' 4 4)) s) ∧
      (bits w 0 4 = 5 → exec (.managementRegisterWrite m 8 w) s = exec (.accept m) s) ∧
      (bits w 0 4 = 0 ∨ 5 < bits w 0 4 → exec (.managementRegisterWrite m 8 w) s = .next s)) ∧
    (∀ (off : Nat) (w : BitVec 64), off ≠ 8 → g.owner ≠ c →
      exec (.managementRegisterWrite m off w) s = .next { s with
        mgmt := { g with refused := if g.refused = 0xFFFFFFFF then g.refused else g.refused + 1 }
        signals := if m = .bmc then s.signals ++ [.mctpError] else s.signals }) ∧
    (∀ w : BitVec 64, g.owner = c →
      exec (.managementRegisterWrite m 0x100 w) s = .next (s.partCmd w) ∧
      exec (.managementRegisterWrite m 0x300 w) s = .next (becomes { g with domCfg := w.extractLsb' 0 16 }) ∧
      exec (.managementRegisterWrite m 0x500 w) s = .next (becomes { g with limitW := w.extractLsb' 0 16 })) ∧
    (∀ w : BitVec 64,
      (exec (.partCreate m w) s = .next (if bits w 0 4 = 1 then s.mgmtWrite m 0x100 w else s)) ∧
      (exec (.partDestroy m w) s = .next (if bits w 0 4 = 2 then s.mgmtWrite m 0x100 w else s)) ∧
      (exec (.moveIsland m w) s = .next (if bits w 0 4 = 3 then s.mgmtWrite m 0x100 w else s)) ∧
      (exec (.moveGroup m w) s = .next (if bits w 0 4 = 4 then s.mgmtWrite m 0x100 w else s)) ∧
      (exec (.partApply m w) s = .next (if bits w 0 4 = 5 then s.mgmtWrite m 0x100 w else s)) ∧
      (g.owner = c → s.mgmtWrite m 0x100 w = s.partCmd w))) ∧
  (∀ (s : State) (m : Master), exec (.refusedWritesRead m) s = .next (
    if s.hasMaster m then { s with mgmt := { s.mgmt with refused := 0 }, signals := s.signals ++ [.readData (s.mgmt.refused.setWidth 64)] }
    else s)) ∧
  (∀ (s : State) (b : Bool), exec (.pfFlr b) s = .next (
    if s.mgmt.owner = (if b then 2 else 1) then { s with mgmt := { s.mgmt with owner := 0, handoverTarget := 0 } } else s)) ∧
  (∀ s : State,
    let age := if s.mgmt.owner = 0 then 0 else min ((s.now - s.mgmt.hbSince).toNat / 1000000) 0xFFFF
    let g := { s.mgmt with owner := 0, handoverTarget := 0, lapseCount := s.mgmt.lapseCount + 1 }
    (s.mgmt.owner = 0 ∨ age < 10000 → exec .ownershipLapse s = .next s) ∧
    (s.mgmt.owner ≠ 0 → 10000 ≤ age → exec .ownershipLapse s = .next { s with
      mgmt := g
      signals := s.signals ++ (if s.hasMaster .pfA then [.pfVector false 0] else []) ++ (if s.hasMaster .pfB then [.pfVector true 0] else []) ++
        [.notify 1 (BitVec.ofNat 64 (g.lapseCount.toNat * 2 ^ 32))] })) ∧
  (∀ (s : State) (w : BitVec 64), let d := bits w 20 4; let r := bits w 16 4
    (s.mgmt.running.isSome = true → s.partCmd w = s) ∧
    (s.mgmt.running = none → s.checkCommand w ≠ 0 →
      s.partCmd w = { s with mgmt := { s.mgmt with running := some { code := s.checkCommand w } } }) ∧
    (badCommand w = true → s.checkCommand w = 1) ∧
    (badCommand w = false →
      (bits w 0 4 = 1 → (s.part d).live = true → s.checkCommand w = 2) ∧
      (bits w 0 4 = 2 → (s.part r).live = false → s.checkCommand w = 3) ∧
      (bits w 0 4 = 5 → (s.part d).live = false → s.checkCommand w = 3) ∧
      (bits w 0 4 = 2 → (s.part r).live = true → ((s.part r).islands ≠ 0 ∨ (s.part r).groups ≠ 0 ∨ s.hasJobs r = true) → s.checkCommand w = 7)) ∧
    (s.mgmt.running = none → s.checkCommand w = 0 →
      (bits w 0 4 = 1 → ∃ t, s.partCmd w = t ∧ t.mgmt = { s.mgmt with running := some { code := 0, old := some (d, s.part d) } } ∧
        (∀ p, p ≠ d → t.part p = s.part p) ∧
        t.part d = { ((s.part d).applied true).filled s.now with
          live := true
          islands := 0
          groups := 0
          schedPops := 0
          schedPreempts := 0
          schedReserves := 0
          scopeCount := 0
          nextReq := 1
          requests := []
          answers := [] } ∧ t = { s with mgmt := t.mgmt, parts := t.parts, shareKeys := t.shareKeys }) ∧
      (bits w 0 4 = 2 → ∃ t, s.partCmd w = t ∧ t.mgmt.running = some { code := 0, destroy := some r } ∧ (t.part r).live = false ∧
        ∀ e ∈ t.churn, ∀ c, e.2 = some c → c.part ≠ r) ∧
      (bits w 0 4 = 5 → (∀ e ∈ s.nodes, ∀ n, e.2 = some n → n.part ≠ d) → ∃ t, s.partCmd w = t ∧
        t.mgmt.running = some { code := 0, parts := [d], old := some (d, s.part d), apply := some (d, (s.part d).applied true), gaveUp := true } ∧
        t.part d = ((s.part d).applied true).filled s.now ∧ (∀ p, p ≠ d → t.part p = s.part p) ∧
        ∀ e ∈ t.churn, ∀ c, e.2 = some c → c.part ≠ d) ∧
      (bits w 0 4 = 3 → ∃ t, s.partCmd w = t ∧ t = ((s.begin {
        code := 0
        parts := (cmdSrc w).toList ++ (cmdDest w).toList
        island := some (cmdUnit w)
        src := cmdSrc w
        dest := cmdDest w }).dropReservations (cmdUnit w)).clearIsland (cmdUnit w)) ∧
      (∀ p, bits w 0 4 = 4 → cmdSrc w = some p → (∀ e ∈ s.nodes, ∀ n, e.2 = some n → n.part = p → n.liesIn e.1 (inGroup (cmdUnit w)) = false) →
        ∃ t, s.partCmd w = t ∧ (t.part p).groups = (s.part p).groups &&& ~~~(BitVec.ofNat 64 (2 ^ cmdUnit w)) ∧
        t.mgmt.running = some {
          code := 0
          parts := p :: (cmdDest w).toList
          group := some (cmdUnit w)
          src := some p
          dest := cmdDest w
          gaveUp := true }) ∧
      (bits w 0 4 = 4 → cmdSrc w = none → s.partCmd w = s.begin {
        code := 0
        parts := (cmdDest w).toList
        group := some (cmdUnit w)
        dest := cmdDest w }))) ∧
  (∀ (x : Partition) (now : BitVec 64),
    let y := x.applied true
    y.staged = {} ∧ y.key = x.staged.key.getD x.key ∧ y.shareId = x.nextCtl.extractLsb' 32 16 ∧ y.vfPort = x.nextCtl.getLsbD 12 ∧
    y.vfIndex = x.nextCtl.extractLsb' 8 4 ∧ y.asidTable = x.staged.asid.getD x.asidTable ∧ y.crockBase = x.staged.crockBase.getD x.crockBase ∧
    y.kv1Base = x.staged.kv1Base.getD x.kv1Base ∧ y.kv2Base = x.staged.kv2Base.getD x.kv2Base ∧ y.kvShape = x.staged.kvShape.getD x.kvShape ∧
    (∀ v, x.staged.bwDepth = some v → y.bwDepth = v.setWidth 8) ∧ (x.staged.bwDepth = none → y.bwDepth = x.bwDepth) ∧
    (x.applied false).kv1Base = x.kv1Base ∧ (x.applied false).kvShape = x.kvShape ∧ (x.applied false).staged.kv1Base = x.staged.kv1Base ∧
    (∀ k < 4, SMap.get {} (x.filled now).buckets k = { count := 4096 * (if x.bwDepth = 0 then 1 else (x.bwDepth.toNat : Int)), since := now })) ∧
  (∀ s : State, s.mgmt.running = none → exec .partCmdComplete s = .next s) ∧
  (∀ (s : State) (c : PartCommand), s.mgmt.running = some c →
    let loser := match c.apply with | some z => some z.1 | none => if c.group.isSome then c.src else none
    (∀ p, loser = some p → c.gaveUp = false →
      (s.nodesLeft c p = true → exec .partCmdComplete s = .next s) ∧ (s.nodesLeft c p = false → exec .partCmdComplete s = .next (s.giveUp c p))) ∧
    ((∀ p, loser = some p → c.gaveUp = true) →
      ((∃ i, c.island = some i ∧ s.islandQuiet i = false) ∨ (∃ p, loser = some p ∧ s.partAccesses p (c.loses p) = true) ∨
        ∃ p, c.destroy = some p ∧ s.dropsLeft p = true) →
      exec .partCmdComplete s = .next s) ∧
    ((∀ i, c.island = some i → s.islandQuiet i = true) → (∀ p, c.destroy = some p → s.dropsLeft p = false) →
      (∀ p, loser = some p → c.gaveUp = true ∧ s.partAccesses p (c.loses p) = false) →
      Answers .partCmdComplete s (fun t =>
        t.mgmt.running = none ∧ t.mgmt.partCode = c.code ∧
        (∀ i k n, c.island = some i → k < 192 → islandOf k = i → s.corePresent k = true → t.core k = (s.core k).zeroed ∧
          (n < 8 → t.bank (8 * k + n) = {}) ∧ (n < 4 → t.cluster (4 * k + n) = {})) ∧
        (∀ i p, c.island = some i → i < 16 → c.dest = some p → c.group = none → (t.part p).islands = (if c.src = some p then (s.part p).islands &&& ~~~(BitVec.ofNat 16 (2 ^ i)) else (s.part p).islands) ||| BitVec.ofNat 16 (2 ^ i)) ∧
        (∀ i p, c.island = some i → i < 16 → c.src = some p → c.dest ≠ some p → c.group = none →
          (t.part p).islands = (s.part p).islands &&& ~~~(BitVec.ofNat 16 (2 ^ i))) ∧
        (∀ g pa, c.group = some g → 2 ^ 33 * g ≤ pa →
          pa < 2 ^ 33 * g + (if g = 0 ∨ g = 32 then s.groupPcs g * 2 ^ 30 - 2 ^ 27 else 2 ^ 33) → t.byte pa = 0 ∧ t.tagAt pa = false) ∧
        (∀ g p, c.group = some g → c.dest = some p → c.island = none → (t.part p).groups = (s.part p).groups ||| BitVec.ofNat 64 (2 ^ g)) ∧
        (c.island = none → c.group = none → t = { s with mgmt := { s.mgmt with running := none, partCode := c.code }, signals := t.signals }) ∧
        (c.island = none → c.group = none → c.parts = [] → t.signals = s.signals ++ (
          if s.mgmt.owner = 1 then [.pfVector false 1] else if s.mgmt.owner = 2 then [.pfVector true 1]
          else if s.mgmt.owner = 3 then [.notify 2 t.partStatus]
          else (if s.hasMaster .pfA then [.pfVector false 1] else []) ++ (if s.hasMaster .pfB then [.pfVector true 1] else []) ++
            [.notify 2 t.partStatus])))))

/-- A domain request of OFF takes effect for a free island only and loses its state, 3 is ignored, RUN and AUTO power it up. An AUTO island with no unit and no lease is gated. Above the cap, or with a compute die at 100 °C, the clocks of the RUN islands it concerns fall by 25 MHz, to 625 at least, with a notification when a flag rises; 10 ms after the last cause of a die they rise by 25 MHz, and each flag clears when no die that it alone had slowed is slow still. At 110 °C, whichever step reads it, power is removed after a critical notification. A bucket rises by its rate for each ns, to its maximum. MCTP reads answer the value of the register, writes the owner may not make answer ERROR, and SPDM requests get the answers R427 gives, a challenge and measurements signed with the identity key. A boot verifies three images in order, each by its Falcon-1024 signature over its digest, and stops at the first that fails, with no VF presented; all that is in the package is as at reset and the tier's tags are clear. (One step of 25 MHz an event, the flags' clearing, the critical notification before its flag and what OFF takes are the model's: logs 42 and 43; so are the error for an SPDM slot other than 0, the boot code of a wrong key digest and what a power-on keeps: log 44, in part PRESUMED; what Falcon-1024 is, is PRESUMED from its standard: log 68; the rest of an SPDM message, a signature's bytes and what it covers are open: log 7.) -/
def Obligations.PowerMessagesAndBoot : Prop :=
  (∀ (s : State) (m : Master) (i : Nat) (req : BitVec 2), i < 18 → s.booted = true → s.hasMaster m = true → s.mgmt.owner = masterCode m →
    let st := SMap.get 0 s.mgmt.domState i
    (req = 3 ∨ (req = 2 ∧ ¬ (i < 16 ∧ s.holdsUnit true none i = true)) → exec (.pwrDomReq m i req) s = .next s) ∧
    (req = 2 → i < 16 → s.holdsUnit true none i = true → Answers (.pwrDomReq m i req) s (fun t =>
      SMap.get 0 t.mgmt.domReq i = 2 ∧ SMap.get 0 t.mgmt.domState i = 2 ∧
      ∀ k n, k < 192 → islandOf k = i → s.corePresent k = true → t.core k = {} ∧ (n < 8 → t.bank (8 * k + n) = {}) ∧
        (n < 4 → t.cluster (4 * k + n) = {}))) ∧
    (req = 0 ∨ req = 1 → exec (.pwrDomReq m i req) s = .next { s with mgmt := { s.mgmt with
      domReq := SMap.set 0 s.mgmt.domReq i req
      domState := SMap.set 0 s.mgmt.domState i (if req = 1 ∨ st = 2 then 0 else st) } })) ∧
  (∀ (s : State) (m : Master) (i : Nat) (req : BitVec 2), exec (.pwrDomReq m i req) s = exec (.managementRegisterWrite m (0x510 + 8 * i) (req.setWidth 64)) s) ∧
  (∀ (s : State) (i : Nat),
    let busy := (∃ b < 1536, islandOf (b / 8) = i ∧ (s.bank b).unit.isSome = true) ∨ (∃ c < 192, islandOf c = i ∧ (s.core c).vat.lease.isSome = true)
    let gates := i < 16 ∧ SMap.get 0 s.mgmt.domReq i = 0 ∧ SMap.get 0 s.mgmt.domState i = 0 ∧ ¬ busy
    (gates → Answers (.islandClockGate i) s (fun t => SMap.get 0 t.mgmt.domState i = 1 ∧ SMap.get 0 t.mgmt.domReq i = 0 ∧
      (∀ j, j ≠ i → SMap.get 0 t.mgmt.domState j = SMap.get 0 s.mgmt.domState j) ∧ t = { s with mgmt := t.mgmt })) ∧
    (¬ gates → exec (.islandClockGate i) s = .next s)) ∧
  (∀ (s : State) (watts : Nat) (temps : BitVec 48),
    let past := max 800 (min 2600 s.mgmt.limitW.toNat) < watts
    let hot := fun (k : Nat) => k < 4 ∧ 100 ≤ bits temps (8 * k) 8
    let mhz := fun (g : Mgmt) (i : Nat) => (SMap.get 1250 g.domMhz i).toNat
    let critical := ∃ k < 6, 110 ≤ bits temps (8 * k) 8
    let y := { s.mgmt with measuredW := BitVec.ofNat 16 watts, temps := temps }
    let seen := fun (t : State) => t.mgmt.cappedAt = (if past then s.now else s.mgmt.cappedAt) ∧
      ∀ k < 4, SMap.get 0 t.mgmt.hotAt k = if hot k then s.now else SMap.get 0 s.mgmt.hotAt k
    let frame := fun (t : State) => t = { s with mgmt := t.mgmt, signals := t.signals } ∧
      t.mgmt = { y with domMhz := t.mgmt.domMhz, capped := t.mgmt.capped, hot := t.mgmt.hot, cappedAt := t.mgmt.cappedAt, hotAt := t.mgmt.hotAt }
    (critical → ∀ i ∈ ([.thermalThrottle watts temps, .clockRestore watts temps] : List Instr), exec i s = .next { s with
      mgmt := { y with critical := true }
      powered := false
      signals := s.signals ++ [.notify 4 ({ s with mgmt := y } : State).thermStatus] }) ∧
    (¬ critical → ¬ past → (∀ k, ¬ hot k) → exec (.thermalThrottle watts temps) s = .next { s with mgmt := y }) ∧
    (¬ critical → past ∨ (∃ k, hot k) → Answers (.thermalThrottle watts temps) s (fun t =>
      (∀ i < 16, mhz t.mgmt i = if (past ∨ hot (i / 4)) ∧ SMap.get 0 s.mgmt.domState i = 0 then max 625 (mhz s.mgmt i - 25) else mhz s.mgmt i) ∧
      (t.mgmt.capped = true ↔ s.mgmt.capped = true ∨ past) ∧ (t.mgmt.hot = true ↔ s.mgmt.hot = true ∨ ∃ k, hot k) ∧ frame t ∧ seen t ∧
      t.signals = s.signals ++ (if (past ∧ s.mgmt.capped = false) ∨ ((∃ k, hot k) ∧ s.mgmt.hot = false) then [.notify 3 t.thermStatus] else []))) ∧
    (¬ critical →
      let cap := ¬ past ∧ (s.mgmt.capped = false ∨ 10000000 ≤ (s.now - s.mgmt.cappedAt).toNat)
      let die := fun (k : Nat) => ¬ hot k ∧ (s.mgmt.hot = false ∨ 10000000 ≤ (s.now - SMap.get 0 s.mgmt.hotAt k).toNat)
      Answers (.clockRestore watts temps) s (fun t =>
        let full := fun (k : Nat) => ∀ i < 4, mhz t.mgmt (4 * k + i) = 1250
        (∀ i < 16, mhz t.mgmt i = if cap ∧ die (i / 4) then min 1250 (mhz s.mgmt i + 25) else mhz s.mgmt i) ∧
        (t.mgmt.capped = true ↔ s.mgmt.capped = true ∧ ¬ (cap ∧ ∀ k < 4, full k ∨ ¬ die k)) ∧
        (t.mgmt.hot = true ↔ s.mgmt.hot = true ∧ ¬ ∀ k < 4, die k ∧ (full k ∨ ¬ cap)) ∧
        frame t ∧ seen t ∧ t.signals = s.signals))) ∧
  (∀ (s : State) (temps : BitVec 48),
    let y : State := { s with mgmt := { s.mgmt with temps := temps } }
    ((∃ k < 6, 110 ≤ bits temps (8 * k) 8) → exec (.criticalShutdown temps) s = .next { y with
      mgmt := { y.mgmt with critical := true }
      powered := false
      signals := s.signals ++ [.notify 4 y.thermStatus] }) ∧
    ((∀ k < 6, bits temps (8 * k) 8 < 110) → exec (.criticalShutdown temps) s = .next s)) ∧
  (∀ (s : State) (p : Nat),
    let x := s.part p
    let refills := fun (n : BucketName) (k : Nat) (rate : BitVec 16) => Answers (.bucketRefill p n) s (fun t =>
      let c := (SMap.get {} x.buckets k).count + rate.toNat * (s.now - (SMap.get {} x.buckets k).since).toNat
      SMap.get {} (t.part p).buckets k = { count := min c (4096 * (if x.bwDepth = 0 then 1 else (x.bwDepth.toNat : Int))), since := s.now } ∧
      (∀ j, j ≠ k → SMap.get {} (t.part p).buckets j = SMap.get {} x.buckets j) ∧ (∀ q, q ≠ p → t.part q = s.part q) ∧
      t = { s with parts := t.parts })
    refills .hbm 0 x.bwHbm ∧ refills .cxl 1 x.bwCxl ∧ refills .yareno 2 x.bwYareno ∧ refills .host 3 x.bwHost) ∧
  (∀ (s : State) (off : Nat) (w : BitVec 64),
    exec (.mctpRead off) s = .next ((s.mgmtRead off).1.signal (.mctpData (s.mgmtRead off).2)) ∧
    (s.booted = false → exec (.mctpWrite off w) s = .next { s with signals := s.signals ++ [.mctpError] }) ∧
    (s.booted = true → off ≠ 8 → s.mgmt.owner ≠ 3 → exec (.mctpWrite off w) s = .next { s with
      mgmt := { s.mgmt with refused := satInc s.mgmt.refused }
      signals := s.signals ++ [.mctpError] }) ∧
    (s.booted = true → off = 8 ∨ s.mgmt.owner = 3 → exec (.mctpWrite off w) s = .next ((s.mgmtWrite .bmc off w).signal (.reply "WRITE" []))) ∧
    (off ≠ 0x10 → off < 0x800 ∨ 0x1000 ≤ off ∨ off % 8 ≠ 0 → (s.mgmtRead off).1 = s) ∧
    (∀ k < 128, ∀ h < 2,
      let e := SMap.get {} s.mgmt.rasLog k
      (s.mgmtRead (0x800 + 16 * k + 8 * h)).1 = { s with mgmt := { s.mgmt with rasUnread := SMap.set false s.mgmt.rasUnread k false } } ∧
      (s.mgmtRead (0x800 + 16 * k + 8 * h)).2 = if h = 0 then e.addr else
        BitVec.ofNat 64 (e.time.toNat * 2 ^ 32 + e.unit.toNat * 2 ^ 24 + e.part.toNat * 2 ^ 16 + e.kind.toNat * 2 ^ 8 + e.source.toNat)) ∧
    (s.mgmtRead 0).2 = BitVec.ofNat 64 (s.mgmt.lapseCount.toNat * 2 ^ 32 + s.hbAge * 2 ^ 16 + s.mgmt.handoverTarget.toNat * 2 ^ 8 + s.mgmt.owner.toNat) ∧
    (s.mgmtRead 0x10).2 = s.mgmt.refused.setWidth 64 ∧ (s.mgmtRead 0x10).1.mgmt.refused = 0 ∧
    (s.mgmtRead 0x108).2 = BitVec.ofNat 64 (s.mgmt.partCode.toNat * 256 + (if s.mgmt.running.isSome then 1 else 0)) ∧
    (s.mgmtRead 0x500).2 = BitVec.ofNat 64 (s.mgmt.measuredW.toNat * 2 ^ 32 + s.mgmt.limitW.toNat) ∧
    (s.mgmtRead 0x600).2 = BitVec.ofNat 64 (s.mgmt.bootSvn.toNat * 2 ^ 16 + s.mgmt.bootStage.toNat * 2 ^ 8 + s.mgmt.bootResult.toNat) ∧
    (∀ p < 16, s.mgmt.running = none →
      (s.mgmtRead (0x1000 + 0x100 * p + 8)).2 = (s.part p).islands.setWidth 64 ∧ (s.mgmtRead (0x1000 + 0x100 * p + 0x10)).2 = (s.part p).groups ∧
      (s.mgmtRead (0x1000 + 0x100 * p + 0x18)).2 = 0 ∧ (s.mgmtRead (0x1000 + 0x100 * p + 0x78)).2 = 0 ∧
      (s.mgmtRead (0x1000 + 0x100 * p + 0x70)).2 = BitVec.ofNat 64 ((s.part p).pageLimit.toNat * 2 ^ 32 + (s.part p).stall.toNat))) ∧
  (∀ (s : State) (eid : BitVec 8) (a h : BitVec 16) (slot block : Nat) (nonce : BitVec 256),
    let replies := fun (i : Instr) (y : State) (name : String) (known : List Byte) => exec i s = .next { y with
      signals := s.signals ++ [.reply name (known ++ Config.replyBytes s.freeNo)]
      freeNo := s.freeNo + 1 }
    let refuses := fun (i : Instr) (code : SpdmError) => exec i s = .next { s with signals := s.signals ++ [.spdmError code] }
    let signs := Config.signature s.freeNo s.fuses.identityKey
    replies .getEndpointId s "GET_ENDPOINT_ID" [s.mgmt.eid] ∧
    replies (.setEndpointId eid) { s with mgmt := { s.mgmt with eid := eid } } "SET_ENDPOINT_ID" [] ∧
    replies .getMctpVersionSupport s "GET_MCTP_VERSION_SUPPORT" [] ∧
    replies .getMessageTypeSupport s "GET_MESSAGE_TYPE_SUPPORT" [0x05, 0x7F] ∧
    replies .getVendorDefinedMessageSupport s "GET_VENDOR_DEFINED_MESSAGE_SUPPORT" [] ∧
    let tells := fun (i : Instr) (y : State) (a : SpdmAnswer) => exec i s = .next { y with
      signals := s.signals ++ [.spdm a (Config.replyBytes s.freeNo)]
      freeNo := s.freeNo + 1 }
    tells .getVersion s (.version 1 3) ∧ tells .getCapabilities s (.capabilities false false) ∧
    tells .getDigests s (.digest 0 (shakeDigest s.fuses.certChain)) ∧
    (a = 1 → h = 2 → tells (.negotiateAlgorithms a h) { s with mgmt := { s.mgmt with spdmNegotiated := true } } (.algorithms (.iana Config.enterprise) 1 2)) ∧
    (a ≠ 1 ∨ h ≠ 2 → refuses (.negotiateAlgorithms a h) .unsupportedRequest) ∧
    (slot = 0 → tells (.getCertificate slot) s (.certificate 0 s.fuses.certChain)) ∧ (slot ≠ 0 → refuses (.getCertificate slot) .invalidRequest) ∧
    (slot = 0 → tells (.challenge slot nonce) s (.challenge 0 nonce
      (signs (toBytes 32 nonce.toNat ++ toBytes 64 (shakeDigest s.fuses.certChain).toNat)))) ∧
    (slot ≠ 0 → refuses (.challenge slot nonce) .invalidRequest) ∧
    (let measures := fun (d : Option (BitVec 512)) => tells (.getMeasurements block) s (.measurement block d
      (signs (BitVec.ofNat 8 block :: (match d with | some x => toBytes 64 x.toNat | none => []))))
    (1 ≤ block → block ≤ 3 → measures s.mgmt.measurements[block - 1]?) ∧
    (block = 4 ∨ block = 5 → measures (some (shakeDigest (Config.measuredBytes block (s.measured block))))) ∧
    (block = 0 ∨ 5 < block → measures none))) ∧
  (∀ (s : State) (images : List BootImage), Answers (.powerOn images) s (fun t =>
    let known := fun (i : BootImage) => shakeDigest i.key = SMap.get 0 s.fuses.keyDigests i.keyIndex.toNat
    let signed := fun (i : BootImage) => falcon1024 i.key (toBytes 64 (shakeDigest i.code).toNat) i.signature = true
    let ok := fun (i : BootImage) => known i ∧ s.fuses.revoked.getLsbD i.keyIndex.toNat = false ∧ signed i ∧
      s.fuses.minVersion ≤ i.version
    let why := fun (i : BootImage) => if ¬ known i then (1 : BitVec 8) else if s.fuses.revoked.getLsbD i.keyIndex.toNat then 2
      else if ¬ signed i then 1 else 3
    let ends := fun (stage result : BitVec 8) (svn : BitVec 16) (ms : List (BitVec 512)) =>
      t.mgmt.bootStage = stage ∧ t.mgmt.bootResult = result ∧ t.mgmt.bootSvn = svn ∧ t.mgmt.measurements = ms ∧ t.booted = decide (stage = 3 ∧ result = 0)
    (∀ a b c rest, images = a :: b :: c :: rest → ok a → ok b → ok c →
      ends 3 0 c.version [shakeDigest a.code, shakeDigest b.code, shakeDigest c.code] ∧ t.mgmt.cxlRange = s.enumerate 10 0 0 []) ∧
    (∀ a rest, images = a :: rest → ¬ ok a → ends 0 (why a) 0 []) ∧
    (∀ a b rest, images = a :: b :: rest → ok a → ¬ ok b → ends 1 (why b) 0 [shakeDigest a.code]) ∧
    (∀ a b c rest, images = a :: b :: c :: rest → ok a → ok b → ¬ ok c → ends 2 (why c) 0 [shakeDigest a.code, shakeDigest b.code]) ∧
    (t.booted = false → ∀ slot, t.boundTo slot = none) ∧
    t = { State.reset with
      fuses := s.fuses
      mem := t.mem
      tags := t.tags
      lineMeta := t.lineMeta
      peerEntries := s.peerEntries
      badHost := s.badHost
      signals := s.signals
      cycles := s.cycles
      fabric := s.fabric
      stepNo := s.stepNo
      freeNo := s.freeNo
      walkNo := s.walkNo
      unitNo := s.unitNo
      agenda := s.agenda
      mgmt := { State.reset.mgmt with
        bootStage := t.mgmt.bootStage
        bootResult := t.mgmt.bootResult
        bootSvn := t.mgmt.bootSvn
        measurements := t.mgmt.measurements
        temps := s.mgmt.temps
        cxlRange := t.mgmt.cxlRange } } ∧
    (∀ pa, t.byte pa = (if pa < 0x100000000000 then 0 else s.byte pa) ∧ t.tagAt pa = (if pa < 0x1000000000000 then false else s.tagAt pa) ∧
      t.lineInfo (pa / 128) = if pa < 0x100000000000 then {} else s.lineInfo (pa / 128)))) ∧
  (∀ (s : State) (n port base : Nat) (m : SMap (BitVec 64)),
    let gib := min (SMap.get 0 s.fuses.attached port * 63 / 64 / 2 ^ 30) (16384 - base)
    s.enumerate (n + 1) port base m = if s.fuses.cxlPorts.getLsbD port = true ∧ gib ≠ 0
      then s.enumerate n (port + 1) (base + gib) (SMap.set 0 m port (BitVec.ofNat 64 (base * 2 ^ 32 + gib * 2 ^ 16 + 1)))
      else s.enumerate n (port + 1) base m)

/-- At reset, on every cluster, the control registers for which the spec gives a reset value read it; h1-h15 are invalid, n0-n7 empty, every template slot is 0xFF00; no partition is live, no master owns the device, the descriptor, power and management registers read their reset values; memory is in canonical form, every byte of HBM reads 0 and no tag is set. That general registers read 0 before a unit has started is the model's own choice (log 13). -/
def Obligations.ResetLeavesTheSpecsValues : Prop :=
  (∀ f : Nat, let s : State := { State.reset with focus := f }
    (∀ e ∈ ([(0x002, 0), (0x003, 0), (0x004, 0), (0x005, 0), (0x006, 0), (0x007, 0), (0x008, 0), (0x00C, 0), (0x00D, 0), (0x00E, 0), (0x00F, 0),
      (0x010, 0), (0x011, 1), (0x110, 0x8000000000000400), (0x111, 0), (0x112, 0), (0x113, 0), (0x115, 0), (0x200, 0x3A800000),
      (0x201, 0x3C000000), (0x202, 0x3C800000), (0x203, 64), (0x204, 256), (0x205, 6), (0x206, 4), (0x207, 0), (0x240, 15), (0x241, 0), (0x260, 2),
      (0x261, 1000), (0x262, 0), (0x263, 0), (0x264, 0), (0x300, 1000), (0x301, 4), (0x302, 50), (0x303, 8), (0x304, 100000), (0x305, 0), (0x306, 0),
      (0x307, 0), (0x310, 0), (0x314, 0), (0x318, 1), (0x319, 0), (0x320, 0), (0x800, 0), (0x801, 0), (0x802, 0x3E801)] : List (Nat × BitVec 64)),
      s.crValue e.1 = e.2) ∧
    (∀ k < 22, s.crValue (0x120 + k) = 2) ∧ (∀ k < 16, s.crValue (0x100 + k) = 0) ∧
    (∀ h : BitVec 4, h ≠ 0 → (s.cur.handle h.toNat).state = .invalid) ∧ (∀ k < 64, s.cur.slot k = 0xFF00) ∧ s.cur.n = [] ∧
    (∀ r, s.reg r = 0) ∧ s.cur.unit = none) ∧
  (∀ p < 16, let x := State.reset.part p
    x.live = false ∧
    ∀ e ∈ ([(0x00, 0), (0x08, 0), (0x10, 0), (0x18, 0), (0x20, 0), (0x28, 16), (0x30, 0), (0x38, 0), (0x40, 0), (0x48, 0), (0x50, 0),
      (0x58, 0x10800700), (0x60, 0), (0x68, 0), (0x70, 0x989680000F4240), (0x78, 0), (0x80, 0), (0x98, 0)] : List (Nat × BitVec 64)),
      (State.reset.mgmtRead (0x1000 + 0x100 * p + e.1)).2 = e.2) ∧
  (∀ e ∈ ([(0x000, 0), (0x010, 0), (0x108, 0), (0x200, 0), (0x300, 0), (0x500, 2600), (0x600, 0)] : List (Nat × BitVec 64)),
    (State.reset.mgmtRead e.1).2 = e.2) ∧
  (∀ i < 16, (State.reset.mgmtRead (0x510 + 8 * i)).2 = BitVec.ofNat 64 (675 * 2 ^ 32 + 1250 * 2 ^ 8)) ∧
  (State.reset.mgmtRead 0x590).2 = BitVec.ofNat 64 (675 * 2 ^ 32 + 2000 * 2 ^ 8) ∧
  (State.reset.mgmtRead 0x598).2 = BitVec.ofNat 64 (675 * 2 ^ 32 + 2000 * 2 ^ 8) ∧
  State.reset.mgmt.hot = false ∧ State.reset.mgmt.capped = false ∧ State.reset.mgmt.critical = false ∧ State.reset.mgmt.owner = 0 ∧ State.reset.powered = true ∧
  Memory.wf State.reset.mem = true ∧ (∀ pa, isHbm pa = true → State.reset.byte pa = 0 ∧ State.reset.tagAt pa = false)

/-- From every state whose memory is in canonical form, a step that answers a next state leaves memory in canonical form: whatever agent moved and whatever it wrote, cleared or zeroed. Equal memories are then equal data. The canonical form is the model's own (log 1). -/
def Obligations.MemoryStaysCanonical : Prop :=
  ∀ s t : State, Memory.wf s.mem = true → step s = .next t → Memory.wf t.mem = true
end

