-- ==== Sys2Proof/Laws/Map.lean ====
section
/-! SUPPORT. Sparse maps: a read after a write, and the canonical form, which every operation keeps. -/

namespace Sys2Proof.Machine

variable {α : Type}

theorem SMap.get_put_same (d : α) (m : SMap α) (k : Nat) (v : α) : SMap.get d (SMap.put m k v) k = v := by
  induction m with
  | nil => simp [SMap.put, SMap.get]
  | cons x m ih =>
    obtain ⟨k', v'⟩ := x
    unfold SMap.put
    split
    · simp [SMap.get]
    · split
      · simp [SMap.get]
      · simp only [SMap.get, ih]
        rw [if_neg (by omega)]

theorem SMap.get_put_other (d : α) (m : SMap α) {k j : Nat} (v : α) (h : j ≠ k) :
    SMap.get d (SMap.put m k v) j = SMap.get d m j := by
  induction m with
  | nil => simp [SMap.put, SMap.get, Ne.symm h]
  | cons x m ih =>
    obtain ⟨k', v'⟩ := x
    unfold SMap.put
    split
    · simp [SMap.get, Ne.symm h]
    · split
      · subst_vars; simp [SMap.get, Ne.symm h]
      · simp only [SMap.get, ih]

theorem SMap.get_del_same (d : α) (m : SMap α) (k : Nat) : SMap.get d (SMap.del m k) k = d := by
  induction m with
  | nil => rfl
  | cons x m ih =>
    obtain ⟨k', v'⟩ := x
    unfold SMap.del
    split
    · exact ih
    · rename_i h; simp [SMap.get, h, ih]

theorem SMap.get_del_other (d : α) (m : SMap α) {k j : Nat} (h : j ≠ k) : SMap.get d (SMap.del m k) j = SMap.get d m j := by
  induction m with
  | nil => rfl
  | cons x m ih =>
    obtain ⟨k', v'⟩ := x
    unfold SMap.del
    split
    · rename_i e; subst e; simp [SMap.get, Ne.symm h, ih]
    · simp [SMap.get, ih]

/-- A key reads as what was written to it. -/
@[simp] theorem SMap.get_set_same [DecidableEq α] (d : α) (m : SMap α) (k : Nat) (v : α) :
    SMap.get d (SMap.set d m k v) k = v := by
  unfold SMap.set
  split
  · rename_i e; rw [e]; exact SMap.get_del_same d m k
  · exact SMap.get_put_same d m k v

/-- A write leaves every other key alone. -/
theorem SMap.get_set_other [DecidableEq α] (d : α) (m : SMap α) {k j : Nat} (v : α) (h : j ≠ k) :
    SMap.get d (SMap.set d m k v) j = SMap.get d m j := by
  unfold SMap.set
  split
  · exact SMap.get_del_other d m h
  · exact SMap.get_put_other d m v h

theorem SMap.get_clear (d : α) (m : SMap α) (lo hi k : Nat) :
    SMap.get d (SMap.clear lo hi m) k = if lo ≤ k ∧ k < hi then d else SMap.get d m k := by
  induction m with
  | nil => simp [SMap.clear, SMap.get]
  | cons x m ih =>
    obtain ⟨k', v'⟩ := x
    unfold SMap.clear
    split
    · rw [ih]
      split
      · rfl
      · rw [SMap.get, if_neg (by intro e; subst e; contradiction)]
    · simp only [SMap.get, ih]
      split
      · subst_vars; rw [if_neg (by assumption)]
      · rfl

theorem SMap.above_mono {m : SMap α} {j k : Nat} (h : SMap.above k m = true) (hjk : j ≤ k) : SMap.above j m = true := by
  induction m with
  | nil => rfl
  | cons x m ih =>
    simp only [SMap.above, Bool.and_eq_true, decide_eq_true_eq] at h ⊢
    exact ⟨by omega, ih h.2⟩

theorem SMap.above_put {m : SMap α} {j k : Nat} {v : α} (h : SMap.above j m = true) (hjk : j < k) :
    SMap.above j (SMap.put m k v) = true := by
  induction m with
  | nil => simp [SMap.put, SMap.above, hjk]
  | cons x m ih =>
    have h' := h
    simp only [SMap.above, Bool.and_eq_true, decide_eq_true_eq] at h'
    unfold SMap.put
    split
    · simp only [SMap.above, Bool.and_eq_true, decide_eq_true_eq]; exact ⟨hjk, h'⟩
    · split
      · simp only [SMap.above, Bool.and_eq_true, decide_eq_true_eq]; exact ⟨hjk, h'.2⟩
      · simp only [SMap.above, Bool.and_eq_true, decide_eq_true_eq]; exact ⟨h'.1, ih h'.2⟩

theorem SMap.above_del {m : SMap α} {j k : Nat} (h : SMap.above j m = true) : SMap.above j (SMap.del m k) = true := by
  induction m with
  | nil => rfl
  | cons x m ih =>
    simp only [SMap.above, Bool.and_eq_true, decide_eq_true_eq] at h
    unfold SMap.del
    split
    · exact ih h.2
    · simp only [SMap.above, Bool.and_eq_true, decide_eq_true_eq]; exact ⟨h.1, ih h.2⟩

theorem SMap.above_clear {m : SMap α} {j lo hi : Nat} (h : SMap.above j m = true) : SMap.above j (SMap.clear lo hi m) = true := by
  induction m with
  | nil => rfl
  | cons x m ih =>
    simp only [SMap.above, Bool.and_eq_true, decide_eq_true_eq] at h
    unfold SMap.clear
    split
    · exact ih h.2
    · simp only [SMap.above, Bool.and_eq_true, decide_eq_true_eq]; exact ⟨h.1, ih h.2⟩

theorem SMap.above_filter {m : SMap α} {j : Nat} (p : Nat × α → Bool) (h : SMap.above j m = true) :
    SMap.above j (m.filter p : SMap α) = true := by
  induction m with
  | nil => rfl
  | cons x m ih =>
    simp only [SMap.above, Bool.and_eq_true, decide_eq_true_eq] at h
    simp only [List.filter]
    split
    · simp only [SMap.above, Bool.and_eq_true, decide_eq_true_eq]; exact ⟨h.1, ih h.2⟩
    · exact ih h.2

theorem SMap.get_of_above {d : α} {m : SMap α} {k j : Nat} (h : SMap.above k m = true) (hj : j ≤ k) : SMap.get d m j = d := by
  induction m with
  | nil => rfl
  | cons x m ih =>
    simp only [SMap.above, Bool.and_eq_true, decide_eq_true_eq] at h
    rw [SMap.get, if_neg (by omega)]; exact ih h.2

variable [DecidableEq α]

theorem SMap.wf_put {d : α} {m : SMap α} {k : Nat} {v : α} (h : SMap.wf d m = true) (hv : v ≠ d) :
    SMap.wf d (SMap.put m k v) = true := by
  induction m with
  | nil => simp [SMap.put, SMap.wf, SMap.above, hv]
  | cons x m ih =>
    have h' := h
    simp only [SMap.wf, Bool.and_eq_true, decide_eq_true_eq] at h'
    unfold SMap.put
    split
    · rename_i hk
      simp only [SMap.wf, SMap.above, Bool.and_eq_true, decide_eq_true_eq]
      exact ⟨⟨hv, hk, SMap.above_mono h'.1.2 (by omega)⟩, h'⟩
    · split
      · simp only [SMap.wf, Bool.and_eq_true, decide_eq_true_eq]
        subst_vars; exact ⟨⟨hv, h'.1.2⟩, h'.2⟩
      · simp only [SMap.wf, Bool.and_eq_true, decide_eq_true_eq]
        exact ⟨⟨h'.1.1, SMap.above_put h'.1.2 (by omega)⟩, ih h'.2⟩

theorem SMap.wf_del {d : α} {m : SMap α} {k : Nat} (h : SMap.wf d m = true) : SMap.wf d (SMap.del m k) = true := by
  induction m with
  | nil => rfl
  | cons x m ih =>
    simp only [SMap.wf, Bool.and_eq_true, decide_eq_true_eq] at h
    unfold SMap.del
    split
    · exact ih h.2
    · simp only [SMap.wf, Bool.and_eq_true, decide_eq_true_eq]
      exact ⟨⟨h.1.1, SMap.above_del h.1.2⟩, ih h.2⟩

/-- A write keeps the canonical form. -/
theorem SMap.wf_set {d : α} {m : SMap α} {k : Nat} {v : α} (h : SMap.wf d m = true) : SMap.wf d (SMap.set d m k v) = true := by
  unfold SMap.set
  split
  · exact SMap.wf_del h
  · rename_i hv; exact SMap.wf_put h hv

theorem SMap.wf_clear {d : α} {m : SMap α} {lo hi : Nat} (h : SMap.wf d m = true) : SMap.wf d (SMap.clear lo hi m) = true := by
  induction m with
  | nil => rfl
  | cons x m ih =>
    simp only [SMap.wf, Bool.and_eq_true, decide_eq_true_eq] at h
    unfold SMap.clear
    split
    · exact ih h.2
    · simp only [SMap.wf, Bool.and_eq_true, decide_eq_true_eq]
      exact ⟨⟨h.1.1, SMap.above_clear h.1.2⟩, ih h.2⟩

theorem SMap.wf_filter {d : α} {m : SMap α} (p : Nat × α → Bool) (h : SMap.wf d m = true) :
    SMap.wf d (m.filter p : SMap α) = true := by
  induction m with
  | nil => rfl
  | cons x m ih =>
    simp only [SMap.wf, Bool.and_eq_true, decide_eq_true_eq] at h
    simp only [List.filter]
    split
    · simp only [SMap.wf, Bool.and_eq_true, decide_eq_true_eq]
      exact ⟨⟨h.1.1, SMap.above_filter p h.1.2⟩, ih h.2⟩
    · exact ih h.2

/-- Equal maps are equal lists: two maps in canonical form that read alike are one list. -/
theorem SMap.ext {d : α} {m n : SMap α} (hm : SMap.wf d m = true) (hn : SMap.wf d n = true)
    (h : ∀ k, SMap.get d m k = SMap.get d n k) : m = n := by
  induction m generalizing n with
  | nil =>
    cases n with
    | nil => rfl
    | cons y n =>
      simp only [SMap.wf, Bool.and_eq_true, decide_eq_true_eq] at hn
      have := h y.1; simp [SMap.get] at this; exact absurd this.symm hn.1.1
  | cons x m ih =>
    simp only [SMap.wf, Bool.and_eq_true, decide_eq_true_eq] at hm
    cases n with
    | nil => have := h x.1; simp [SMap.get] at this; exact absurd this hm.1.1
    | cons y n =>
      simp only [SMap.wf, Bool.and_eq_true, decide_eq_true_eq] at hn
      obtain ⟨kx, vx⟩ := x; obtain ⟨ky, vy⟩ := y
      simp only at hm hn
      have hk : kx = ky := by
        rcases Nat.lt_trichotomy kx ky with hlt | heq | hgt
        · have h1 := h kx
          rw [SMap.get, if_pos rfl, SMap.get, if_neg (by omega), SMap.get_of_above hn.1.2 (by omega)] at h1
          exact absurd h1 hm.1.1
        · exact heq
        · have h1 := h ky
          rw [SMap.get, if_neg (by omega), SMap.get_of_above hm.1.2 (by omega), SMap.get, if_pos rfl] at h1
          exact absurd h1.symm hn.1.1
      subst hk
      have hv : vx = vy := by have := h kx; simpa [SMap.get] using this
      subst hv
      congr 1
      apply ih hm.2 hn.2
      intro k
      by_cases e : kx = k
      · subst e; rw [SMap.get_of_above hm.1.2 (by omega), SMap.get_of_above hn.1.2 (by omega)]
      · have := h k; simpa [SMap.get, e] using this

end Sys2Proof.Machine
end

