-- ==== Sys2Proof/Laws/State.lean ====
section
/-! SUPPORT. What each update of the state leaves alone: one lemma per field and per accessor. -/

namespace Sys2Proof.Machine

set_option Elab.async false

@[simp] theorem State.setBank_clusters (s : State) (b : Nat) (x : Bank) : (s.setBank b x).clusters = s.clusters := rfl
@[simp] theorem State.setBank_cores (s : State) (b : Nat) (x : Bank) : (s.setBank b x).cores = s.cores := rfl
@[simp] theorem State.setBank_parts (s : State) (b : Nat) (x : Bank) : (s.setBank b x).parts = s.parts := rfl
@[simp] theorem State.setBank_jobs (s : State) (b : Nat) (x : Bank) : (s.setBank b x).jobs = s.jobs := rfl
@[simp] theorem State.setBank_shareKeys (s : State) (b : Nat) (x : Bank) : (s.setBank b x).shareKeys = s.shareKeys := rfl
@[simp] theorem State.setBank_mem (s : State) (b : Nat) (x : Bank) : (s.setBank b x).mem = s.mem := rfl
@[simp] theorem State.setBank_tags (s : State) (b : Nat) (x : Bank) : (s.setBank b x).tags = s.tags := rfl
@[simp] theorem State.setBank_lineMeta (s : State) (b : Nat) (x : Bank) : (s.setBank b x).lineMeta = s.lineMeta := rfl
@[simp] theorem State.setBank_liveRegions (s : State) (b : Nat) (x : Bank) : (s.setBank b x).liveRegions = s.liveRegions := rfl
@[simp] theorem State.setBank_badSectors (s : State) (b : Nat) (x : Bank) : (s.setBank b x).badSectors = s.badSectors := rfl
@[simp] theorem State.setBank_badMetaBlocks (s : State) (b : Nat) (x : Bank) : (s.setBank b x).badMetaBlocks = s.badMetaBlocks := rfl
@[simp] theorem State.setBank_softSectors (s : State) (b : Nat) (x : Bank) : (s.setBank b x).softSectors = s.softSectors := rfl
@[simp] theorem State.setBank_badHost (s : State) (b : Nat) (x : Bank) : (s.setBank b x).badHost = s.badHost := rfl
@[simp] theorem State.setBank_written (s : State) (b : Nat) (x : Bank) : (s.setBank b x).written = s.written := rfl
@[simp] theorem State.setBank_records (s : State) (b : Nat) (x : Bank) : (s.setBank b x).records = s.records := rfl
@[simp] theorem State.setBank_scopes (s : State) (b : Nat) (x : Bank) : (s.setBank b x).scopes = s.scopes := rfl
@[simp] theorem State.setBank_nodes (s : State) (b : Nat) (x : Bank) : (s.setBank b x).nodes = s.nodes := rfl
@[simp] theorem State.setBank_gens (s : State) (b : Nat) (x : Bank) : (s.setBank b x).gens = s.gens := rfl
@[simp] theorem State.setBank_index (s : State) (b : Nat) (x : Bank) : (s.setBank b x).index = s.index := rfl
@[simp] theorem State.setBank_directory (s : State) (b : Nat) (x : Bank) : (s.setBank b x).directory = s.directory := rfl
@[simp] theorem State.setBank_peerEntries (s : State) (b : Nat) (x : Bank) : (s.setBank b x).peerEntries = s.peerEntries := rfl
@[simp] theorem State.setBank_churn (s : State) (b : Nat) (x : Bank) : (s.setBank b x).churn = s.churn := rfl
@[simp] theorem State.setBank_captures (s : State) (b : Nat) (x : Bank) : (s.setBank b x).captures = s.captures := rfl
@[simp] theorem State.setBank_mgmt (s : State) (b : Nat) (x : Bank) : (s.setBank b x).mgmt = s.mgmt := rfl
@[simp] theorem State.setBank_fuses (s : State) (b : Nat) (x : Bank) : (s.setBank b x).fuses = s.fuses := rfl
@[simp] theorem State.setBank_now (s : State) (b : Nat) (x : Bank) : (s.setBank b x).now = s.now := rfl
@[simp] theorem State.setBank_powered (s : State) (b : Nat) (x : Bank) : (s.setBank b x).powered = s.powered := rfl
@[simp] theorem State.setBank_signals (s : State) (b : Nat) (x : Bank) : (s.setBank b x).signals = s.signals := rfl
@[simp] theorem State.setBank_notified (s : State) (b : Nat) (x : Bank) : (s.setBank b x).notified = s.notified := rfl
@[simp] theorem State.setBank_badCrock (s : State) (b : Nat) (x : Bank) : (s.setBank b x).badCrock = s.badCrock := rfl
@[simp] theorem State.setBank_crockFull (s : State) (b : Nat) (x : Bank) : (s.setBank b x).crockFull = s.crockFull := rfl
@[simp] theorem State.setBank_scrubs (s : State) (b : Nat) (x : Bank) : (s.setBank b x).scrubs = s.scrubs := rfl
@[simp] theorem State.setBank_vfMbox (s : State) (b : Nat) (x : Bank) : (s.setBank b x).vfMbox = s.vfMbox := rfl
@[simp] theorem State.setBank_msix (s : State) (b : Nat) (x : Bank) : (s.setBank b x).msix = s.msix := rfl
@[simp] theorem State.setBank_cycles (s : State) (b : Nat) (x : Bank) : (s.setBank b x).cycles = s.cycles := rfl
@[simp] theorem State.setBank_fabric (s : State) (b : Nat) (x : Bank) : (s.setBank b x).fabric = s.fabric := rfl
@[simp] theorem State.setBank_stepNo (s : State) (b : Nat) (x : Bank) : (s.setBank b x).stepNo = s.stepNo := rfl
@[simp] theorem State.setBank_freeNo (s : State) (b : Nat) (x : Bank) : (s.setBank b x).freeNo = s.freeNo := rfl
@[simp] theorem State.setBank_walkNo (s : State) (b : Nat) (x : Bank) : (s.setBank b x).walkNo = s.walkNo := rfl
@[simp] theorem State.setBank_unitNo (s : State) (b : Nat) (x : Bank) : (s.setBank b x).unitNo = s.unitNo := rfl
@[simp] theorem State.setBank_agenda (s : State) (b : Nat) (x : Bank) : (s.setBank b x).agenda = s.agenda := rfl
@[simp] theorem State.setBank_focus (s : State) (b : Nat) (x : Bank) : (s.setBank b x).focus = s.focus := rfl
@[simp] theorem State.setBank_note (s : State) (b : Nat) (x : Bank) : (s.setBank b x).note = s.note := rfl
@[simp] theorem State.setBank_cluster_at (s : State) (b : Nat) (x : Bank) (k : Nat) : (s.setBank b x).cluster k = s.cluster k := rfl
@[simp] theorem State.setBank_core_at (s : State) (b : Nat) (x : Bank) (k : Nat) : (s.setBank b x).core k = s.core k := rfl
@[simp] theorem State.setBank_part_at (s : State) (b : Nat) (x : Bank) (k : Nat) : (s.setBank b x).part k = s.part k := rfl
@[simp] theorem State.setBank_job_at (s : State) (b : Nat) (x : Bank) (q k : Nat) : (s.setBank b x).job q k = s.job q k := rfl
@[simp] theorem State.setBank_byte_at (s : State) (b : Nat) (x : Bank) (k : Nat) : (s.setBank b x).byte k = s.byte k := rfl
@[simp] theorem State.setBank_tagAt_at (s : State) (b : Nat) (x : Bank) (k : Nat) : (s.setBank b x).tagAt k = s.tagAt k := rfl
@[simp] theorem State.setBank_lineInfo_at (s : State) (b : Nat) (x : Bank) (k : Nat) : (s.setBank b x).lineInfo k = s.lineInfo k := rfl
@[simp] theorem State.setBank_activeBank_at (s : State) (b : Nat) (x : Bank) (k : Nat) : (s.setBank b x).activeBank k = s.activeBank k := rfl
@[simp] theorem State.setBank_liveAt_at (s : State) (b : Nat) (x : Bank) (k : Nat) : (s.setBank b x).liveAt k = s.liveAt k := rfl
@[simp] theorem State.setBank_node_at (s : State) (b : Nat) (x : Bank) (k : Nat) : (s.setBank b x).node k = s.node k := rfl

@[simp] theorem State.setCluster_banks (s : State) (c : Nat) (x : Cluster) : (s.setCluster c x).banks = s.banks := rfl
@[simp] theorem State.setCluster_cores (s : State) (c : Nat) (x : Cluster) : (s.setCluster c x).cores = s.cores := rfl
@[simp] theorem State.setCluster_parts (s : State) (c : Nat) (x : Cluster) : (s.setCluster c x).parts = s.parts := rfl
@[simp] theorem State.setCluster_jobs (s : State) (c : Nat) (x : Cluster) : (s.setCluster c x).jobs = s.jobs := rfl
@[simp] theorem State.setCluster_shareKeys (s : State) (c : Nat) (x : Cluster) : (s.setCluster c x).shareKeys = s.shareKeys := rfl
@[simp] theorem State.setCluster_mem (s : State) (c : Nat) (x : Cluster) : (s.setCluster c x).mem = s.mem := rfl
@[simp] theorem State.setCluster_tags (s : State) (c : Nat) (x : Cluster) : (s.setCluster c x).tags = s.tags := rfl
@[simp] theorem State.setCluster_lineMeta (s : State) (c : Nat) (x : Cluster) : (s.setCluster c x).lineMeta = s.lineMeta := rfl
@[simp] theorem State.setCluster_liveRegions (s : State) (c : Nat) (x : Cluster) : (s.setCluster c x).liveRegions = s.liveRegions := rfl
@[simp] theorem State.setCluster_badSectors (s : State) (c : Nat) (x : Cluster) : (s.setCluster c x).badSectors = s.badSectors := rfl
@[simp] theorem State.setCluster_badMetaBlocks (s : State) (c : Nat) (x : Cluster) : (s.setCluster c x).badMetaBlocks = s.badMetaBlocks := rfl
@[simp] theorem State.setCluster_softSectors (s : State) (c : Nat) (x : Cluster) : (s.setCluster c x).softSectors = s.softSectors := rfl
@[simp] theorem State.setCluster_badHost (s : State) (c : Nat) (x : Cluster) : (s.setCluster c x).badHost = s.badHost := rfl
@[simp] theorem State.setCluster_written (s : State) (c : Nat) (x : Cluster) : (s.setCluster c x).written = s.written := rfl
@[simp] theorem State.setCluster_records (s : State) (c : Nat) (x : Cluster) : (s.setCluster c x).records = s.records := rfl
@[simp] theorem State.setCluster_scopes (s : State) (c : Nat) (x : Cluster) : (s.setCluster c x).scopes = s.scopes := rfl
@[simp] theorem State.setCluster_nodes (s : State) (c : Nat) (x : Cluster) : (s.setCluster c x).nodes = s.nodes := rfl
@[simp] theorem State.setCluster_gens (s : State) (c : Nat) (x : Cluster) : (s.setCluster c x).gens = s.gens := rfl
@[simp] theorem State.setCluster_index (s : State) (c : Nat) (x : Cluster) : (s.setCluster c x).index = s.index := rfl
@[simp] theorem State.setCluster_directory (s : State) (c : Nat) (x : Cluster) : (s.setCluster c x).directory = s.directory := rfl
@[simp] theorem State.setCluster_peerEntries (s : State) (c : Nat) (x : Cluster) : (s.setCluster c x).peerEntries = s.peerEntries := rfl
@[simp] theorem State.setCluster_churn (s : State) (c : Nat) (x : Cluster) : (s.setCluster c x).churn = s.churn := rfl
@[simp] theorem State.setCluster_captures (s : State) (c : Nat) (x : Cluster) : (s.setCluster c x).captures = s.captures := rfl
@[simp] theorem State.setCluster_mgmt (s : State) (c : Nat) (x : Cluster) : (s.setCluster c x).mgmt = s.mgmt := rfl
@[simp] theorem State.setCluster_fuses (s : State) (c : Nat) (x : Cluster) : (s.setCluster c x).fuses = s.fuses := rfl
@[simp] theorem State.setCluster_now (s : State) (c : Nat) (x : Cluster) : (s.setCluster c x).now = s.now := rfl
@[simp] theorem State.setCluster_powered (s : State) (c : Nat) (x : Cluster) : (s.setCluster c x).powered = s.powered := rfl
@[simp] theorem State.setCluster_signals (s : State) (c : Nat) (x : Cluster) : (s.setCluster c x).signals = s.signals := rfl
@[simp] theorem State.setCluster_notified (s : State) (c : Nat) (x : Cluster) : (s.setCluster c x).notified = s.notified := rfl
@[simp] theorem State.setCluster_badCrock (s : State) (c : Nat) (x : Cluster) : (s.setCluster c x).badCrock = s.badCrock := rfl
@[simp] theorem State.setCluster_crockFull (s : State) (c : Nat) (x : Cluster) : (s.setCluster c x).crockFull = s.crockFull := rfl
@[simp] theorem State.setCluster_scrubs (s : State) (c : Nat) (x : Cluster) : (s.setCluster c x).scrubs = s.scrubs := rfl
@[simp] theorem State.setCluster_vfMbox (s : State) (c : Nat) (x : Cluster) : (s.setCluster c x).vfMbox = s.vfMbox := rfl
@[simp] theorem State.setCluster_msix (s : State) (c : Nat) (x : Cluster) : (s.setCluster c x).msix = s.msix := rfl
@[simp] theorem State.setCluster_cycles (s : State) (c : Nat) (x : Cluster) : (s.setCluster c x).cycles = s.cycles := rfl
@[simp] theorem State.setCluster_fabric (s : State) (c : Nat) (x : Cluster) : (s.setCluster c x).fabric = s.fabric := rfl
@[simp] theorem State.setCluster_stepNo (s : State) (c : Nat) (x : Cluster) : (s.setCluster c x).stepNo = s.stepNo := rfl
@[simp] theorem State.setCluster_freeNo (s : State) (c : Nat) (x : Cluster) : (s.setCluster c x).freeNo = s.freeNo := rfl
@[simp] theorem State.setCluster_walkNo (s : State) (c : Nat) (x : Cluster) : (s.setCluster c x).walkNo = s.walkNo := rfl
@[simp] theorem State.setCluster_unitNo (s : State) (c : Nat) (x : Cluster) : (s.setCluster c x).unitNo = s.unitNo := rfl
@[simp] theorem State.setCluster_agenda (s : State) (c : Nat) (x : Cluster) : (s.setCluster c x).agenda = s.agenda := rfl
@[simp] theorem State.setCluster_focus (s : State) (c : Nat) (x : Cluster) : (s.setCluster c x).focus = s.focus := rfl
@[simp] theorem State.setCluster_note (s : State) (c : Nat) (x : Cluster) : (s.setCluster c x).note = s.note := rfl
@[simp] theorem State.setCluster_bank_at (s : State) (c : Nat) (x : Cluster) (k : Nat) : (s.setCluster c x).bank k = s.bank k := rfl
@[simp] theorem State.setCluster_core_at (s : State) (c : Nat) (x : Cluster) (k : Nat) : (s.setCluster c x).core k = s.core k := rfl
@[simp] theorem State.setCluster_part_at (s : State) (c : Nat) (x : Cluster) (k : Nat) : (s.setCluster c x).part k = s.part k := rfl
@[simp] theorem State.setCluster_job_at (s : State) (c : Nat) (x : Cluster) (q k : Nat) : (s.setCluster c x).job q k = s.job q k := rfl
@[simp] theorem State.setCluster_byte_at (s : State) (c : Nat) (x : Cluster) (k : Nat) : (s.setCluster c x).byte k = s.byte k := rfl
@[simp] theorem State.setCluster_tagAt_at (s : State) (c : Nat) (x : Cluster) (k : Nat) : (s.setCluster c x).tagAt k = s.tagAt k := rfl
@[simp] theorem State.setCluster_lineInfo_at (s : State) (c : Nat) (x : Cluster) (k : Nat) : (s.setCluster c x).lineInfo k = s.lineInfo k := rfl
@[simp] theorem State.setCluster_liveAt_at (s : State) (c : Nat) (x : Cluster) (k : Nat) : (s.setCluster c x).liveAt k = s.liveAt k := rfl
@[simp] theorem State.setCluster_node_at (s : State) (c : Nat) (x : Cluster) (k : Nat) : (s.setCluster c x).node k = s.node k := rfl

@[simp] theorem State.setCore_banks (s : State) (n : Nat) (x : Core) : (s.setCore n x).banks = s.banks := rfl
@[simp] theorem State.setCore_clusters (s : State) (n : Nat) (x : Core) : (s.setCore n x).clusters = s.clusters := rfl
@[simp] theorem State.setCore_parts (s : State) (n : Nat) (x : Core) : (s.setCore n x).parts = s.parts := rfl
@[simp] theorem State.setCore_jobs (s : State) (n : Nat) (x : Core) : (s.setCore n x).jobs = s.jobs := rfl
@[simp] theorem State.setCore_shareKeys (s : State) (n : Nat) (x : Core) : (s.setCore n x).shareKeys = s.shareKeys := rfl
@[simp] theorem State.setCore_mem (s : State) (n : Nat) (x : Core) : (s.setCore n x).mem = s.mem := rfl
@[simp] theorem State.setCore_tags (s : State) (n : Nat) (x : Core) : (s.setCore n x).tags = s.tags := rfl
@[simp] theorem State.setCore_lineMeta (s : State) (n : Nat) (x : Core) : (s.setCore n x).lineMeta = s.lineMeta := rfl
@[simp] theorem State.setCore_liveRegions (s : State) (n : Nat) (x : Core) : (s.setCore n x).liveRegions = s.liveRegions := rfl
@[simp] theorem State.setCore_badSectors (s : State) (n : Nat) (x : Core) : (s.setCore n x).badSectors = s.badSectors := rfl
@[simp] theorem State.setCore_badMetaBlocks (s : State) (n : Nat) (x : Core) : (s.setCore n x).badMetaBlocks = s.badMetaBlocks := rfl
@[simp] theorem State.setCore_softSectors (s : State) (n : Nat) (x : Core) : (s.setCore n x).softSectors = s.softSectors := rfl
@[simp] theorem State.setCore_badHost (s : State) (n : Nat) (x : Core) : (s.setCore n x).badHost = s.badHost := rfl
@[simp] theorem State.setCore_written (s : State) (n : Nat) (x : Core) : (s.setCore n x).written = s.written := rfl
@[simp] theorem State.setCore_records (s : State) (n : Nat) (x : Core) : (s.setCore n x).records = s.records := rfl
@[simp] theorem State.setCore_scopes (s : State) (n : Nat) (x : Core) : (s.setCore n x).scopes = s.scopes := rfl
@[simp] theorem State.setCore_nodes (s : State) (n : Nat) (x : Core) : (s.setCore n x).nodes = s.nodes := rfl
@[simp] theorem State.setCore_gens (s : State) (n : Nat) (x : Core) : (s.setCore n x).gens = s.gens := rfl
@[simp] theorem State.setCore_index (s : State) (n : Nat) (x : Core) : (s.setCore n x).index = s.index := rfl
@[simp] theorem State.setCore_directory (s : State) (n : Nat) (x : Core) : (s.setCore n x).directory = s.directory := rfl
@[simp] theorem State.setCore_peerEntries (s : State) (n : Nat) (x : Core) : (s.setCore n x).peerEntries = s.peerEntries := rfl
@[simp] theorem State.setCore_churn (s : State) (n : Nat) (x : Core) : (s.setCore n x).churn = s.churn := rfl
@[simp] theorem State.setCore_captures (s : State) (n : Nat) (x : Core) : (s.setCore n x).captures = s.captures := rfl
@[simp] theorem State.setCore_mgmt (s : State) (n : Nat) (x : Core) : (s.setCore n x).mgmt = s.mgmt := rfl
@[simp] theorem State.setCore_fuses (s : State) (n : Nat) (x : Core) : (s.setCore n x).fuses = s.fuses := rfl
@[simp] theorem State.setCore_now (s : State) (n : Nat) (x : Core) : (s.setCore n x).now = s.now := rfl
@[simp] theorem State.setCore_powered (s : State) (n : Nat) (x : Core) : (s.setCore n x).powered = s.powered := rfl
@[simp] theorem State.setCore_signals (s : State) (n : Nat) (x : Core) : (s.setCore n x).signals = s.signals := rfl
@[simp] theorem State.setCore_notified (s : State) (n : Nat) (x : Core) : (s.setCore n x).notified = s.notified := rfl
@[simp] theorem State.setCore_badCrock (s : State) (n : Nat) (x : Core) : (s.setCore n x).badCrock = s.badCrock := rfl
@[simp] theorem State.setCore_crockFull (s : State) (n : Nat) (x : Core) : (s.setCore n x).crockFull = s.crockFull := rfl
@[simp] theorem State.setCore_scrubs (s : State) (n : Nat) (x : Core) : (s.setCore n x).scrubs = s.scrubs := rfl
@[simp] theorem State.setCore_vfMbox (s : State) (n : Nat) (x : Core) : (s.setCore n x).vfMbox = s.vfMbox := rfl
@[simp] theorem State.setCore_msix (s : State) (n : Nat) (x : Core) : (s.setCore n x).msix = s.msix := rfl
@[simp] theorem State.setCore_cycles (s : State) (n : Nat) (x : Core) : (s.setCore n x).cycles = s.cycles := rfl
@[simp] theorem State.setCore_fabric (s : State) (n : Nat) (x : Core) : (s.setCore n x).fabric = s.fabric := rfl
@[simp] theorem State.setCore_stepNo (s : State) (n : Nat) (x : Core) : (s.setCore n x).stepNo = s.stepNo := rfl
@[simp] theorem State.setCore_freeNo (s : State) (n : Nat) (x : Core) : (s.setCore n x).freeNo = s.freeNo := rfl
@[simp] theorem State.setCore_walkNo (s : State) (n : Nat) (x : Core) : (s.setCore n x).walkNo = s.walkNo := rfl
@[simp] theorem State.setCore_unitNo (s : State) (n : Nat) (x : Core) : (s.setCore n x).unitNo = s.unitNo := rfl
@[simp] theorem State.setCore_agenda (s : State) (n : Nat) (x : Core) : (s.setCore n x).agenda = s.agenda := rfl
@[simp] theorem State.setCore_focus (s : State) (n : Nat) (x : Core) : (s.setCore n x).focus = s.focus := rfl
@[simp] theorem State.setCore_note (s : State) (n : Nat) (x : Core) : (s.setCore n x).note = s.note := rfl
@[simp] theorem State.setCore_bank_at (s : State) (n : Nat) (x : Core) (k : Nat) : (s.setCore n x).bank k = s.bank k := rfl
@[simp] theorem State.setCore_cluster_at (s : State) (n : Nat) (x : Core) (k : Nat) : (s.setCore n x).cluster k = s.cluster k := rfl
@[simp] theorem State.setCore_part_at (s : State) (n : Nat) (x : Core) (k : Nat) : (s.setCore n x).part k = s.part k := rfl
@[simp] theorem State.setCore_job_at (s : State) (n : Nat) (x : Core) (q k : Nat) : (s.setCore n x).job q k = s.job q k := rfl
@[simp] theorem State.setCore_byte_at (s : State) (n : Nat) (x : Core) (k : Nat) : (s.setCore n x).byte k = s.byte k := rfl
@[simp] theorem State.setCore_tagAt_at (s : State) (n : Nat) (x : Core) (k : Nat) : (s.setCore n x).tagAt k = s.tagAt k := rfl
@[simp] theorem State.setCore_lineInfo_at (s : State) (n : Nat) (x : Core) (k : Nat) : (s.setCore n x).lineInfo k = s.lineInfo k := rfl
@[simp] theorem State.setCore_activeBank_at (s : State) (n : Nat) (x : Core) (k : Nat) : (s.setCore n x).activeBank k = s.activeBank k := rfl
@[simp] theorem State.setCore_liveAt_at (s : State) (n : Nat) (x : Core) (k : Nat) : (s.setCore n x).liveAt k = s.liveAt k := rfl
@[simp] theorem State.setCore_node_at (s : State) (n : Nat) (x : Core) (k : Nat) : (s.setCore n x).node k = s.node k := rfl

@[simp] theorem State.setPart_banks (s : State) (p : Nat) (x : Partition) : (s.setPart p x).banks = s.banks := rfl
@[simp] theorem State.setPart_clusters (s : State) (p : Nat) (x : Partition) : (s.setPart p x).clusters = s.clusters := rfl
@[simp] theorem State.setPart_cores (s : State) (p : Nat) (x : Partition) : (s.setPart p x).cores = s.cores := rfl
@[simp] theorem State.setPart_jobs (s : State) (p : Nat) (x : Partition) : (s.setPart p x).jobs = s.jobs := rfl
@[simp] theorem State.setPart_shareKeys (s : State) (p : Nat) (x : Partition) : (s.setPart p x).shareKeys = s.shareKeys := rfl
@[simp] theorem State.setPart_mem (s : State) (p : Nat) (x : Partition) : (s.setPart p x).mem = s.mem := rfl
@[simp] theorem State.setPart_tags (s : State) (p : Nat) (x : Partition) : (s.setPart p x).tags = s.tags := rfl
@[simp] theorem State.setPart_lineMeta (s : State) (p : Nat) (x : Partition) : (s.setPart p x).lineMeta = s.lineMeta := rfl
@[simp] theorem State.setPart_liveRegions (s : State) (p : Nat) (x : Partition) : (s.setPart p x).liveRegions = s.liveRegions := rfl
@[simp] theorem State.setPart_badSectors (s : State) (p : Nat) (x : Partition) : (s.setPart p x).badSectors = s.badSectors := rfl
@[simp] theorem State.setPart_badMetaBlocks (s : State) (p : Nat) (x : Partition) : (s.setPart p x).badMetaBlocks = s.badMetaBlocks := rfl
@[simp] theorem State.setPart_softSectors (s : State) (p : Nat) (x : Partition) : (s.setPart p x).softSectors = s.softSectors := rfl
@[simp] theorem State.setPart_badHost (s : State) (p : Nat) (x : Partition) : (s.setPart p x).badHost = s.badHost := rfl
@[simp] theorem State.setPart_written (s : State) (p : Nat) (x : Partition) : (s.setPart p x).written = s.written := rfl
@[simp] theorem State.setPart_records (s : State) (p : Nat) (x : Partition) : (s.setPart p x).records = s.records := rfl
@[simp] theorem State.setPart_scopes (s : State) (p : Nat) (x : Partition) : (s.setPart p x).scopes = s.scopes := rfl
@[simp] theorem State.setPart_nodes (s : State) (p : Nat) (x : Partition) : (s.setPart p x).nodes = s.nodes := rfl
@[simp] theorem State.setPart_gens (s : State) (p : Nat) (x : Partition) : (s.setPart p x).gens = s.gens := rfl
@[simp] theorem State.setPart_index (s : State) (p : Nat) (x : Partition) : (s.setPart p x).index = s.index := rfl
@[simp] theorem State.setPart_directory (s : State) (p : Nat) (x : Partition) : (s.setPart p x).directory = s.directory := rfl
@[simp] theorem State.setPart_peerEntries (s : State) (p : Nat) (x : Partition) : (s.setPart p x).peerEntries = s.peerEntries := rfl
@[simp] theorem State.setPart_churn (s : State) (p : Nat) (x : Partition) : (s.setPart p x).churn = s.churn := rfl
@[simp] theorem State.setPart_captures (s : State) (p : Nat) (x : Partition) : (s.setPart p x).captures = s.captures := rfl
@[simp] theorem State.setPart_mgmt (s : State) (p : Nat) (x : Partition) : (s.setPart p x).mgmt = s.mgmt := rfl
@[simp] theorem State.setPart_fuses (s : State) (p : Nat) (x : Partition) : (s.setPart p x).fuses = s.fuses := rfl
@[simp] theorem State.setPart_now (s : State) (p : Nat) (x : Partition) : (s.setPart p x).now = s.now := rfl
@[simp] theorem State.setPart_powered (s : State) (p : Nat) (x : Partition) : (s.setPart p x).powered = s.powered := rfl
@[simp] theorem State.setPart_signals (s : State) (p : Nat) (x : Partition) : (s.setPart p x).signals = s.signals := rfl
@[simp] theorem State.setPart_notified (s : State) (p : Nat) (x : Partition) : (s.setPart p x).notified = s.notified := rfl
@[simp] theorem State.setPart_badCrock (s : State) (p : Nat) (x : Partition) : (s.setPart p x).badCrock = s.badCrock := rfl
@[simp] theorem State.setPart_crockFull (s : State) (p : Nat) (x : Partition) : (s.setPart p x).crockFull = s.crockFull := rfl
@[simp] theorem State.setPart_scrubs (s : State) (p : Nat) (x : Partition) : (s.setPart p x).scrubs = s.scrubs := rfl
@[simp] theorem State.setPart_vfMbox (s : State) (p : Nat) (x : Partition) : (s.setPart p x).vfMbox = s.vfMbox := rfl
@[simp] theorem State.setPart_msix (s : State) (p : Nat) (x : Partition) : (s.setPart p x).msix = s.msix := rfl
@[simp] theorem State.setPart_cycles (s : State) (p : Nat) (x : Partition) : (s.setPart p x).cycles = s.cycles := rfl
@[simp] theorem State.setPart_fabric (s : State) (p : Nat) (x : Partition) : (s.setPart p x).fabric = s.fabric := rfl
@[simp] theorem State.setPart_stepNo (s : State) (p : Nat) (x : Partition) : (s.setPart p x).stepNo = s.stepNo := rfl
@[simp] theorem State.setPart_freeNo (s : State) (p : Nat) (x : Partition) : (s.setPart p x).freeNo = s.freeNo := rfl
@[simp] theorem State.setPart_walkNo (s : State) (p : Nat) (x : Partition) : (s.setPart p x).walkNo = s.walkNo := rfl
@[simp] theorem State.setPart_unitNo (s : State) (p : Nat) (x : Partition) : (s.setPart p x).unitNo = s.unitNo := rfl
@[simp] theorem State.setPart_agenda (s : State) (p : Nat) (x : Partition) : (s.setPart p x).agenda = s.agenda := rfl
@[simp] theorem State.setPart_focus (s : State) (p : Nat) (x : Partition) : (s.setPart p x).focus = s.focus := rfl
@[simp] theorem State.setPart_note (s : State) (p : Nat) (x : Partition) : (s.setPart p x).note = s.note := rfl
@[simp] theorem State.setPart_bank_at (s : State) (p : Nat) (x : Partition) (k : Nat) : (s.setPart p x).bank k = s.bank k := rfl
@[simp] theorem State.setPart_cluster_at (s : State) (p : Nat) (x : Partition) (k : Nat) : (s.setPart p x).cluster k = s.cluster k := rfl
@[simp] theorem State.setPart_core_at (s : State) (p : Nat) (x : Partition) (k : Nat) : (s.setPart p x).core k = s.core k := rfl
@[simp] theorem State.setPart_job_at (s : State) (p : Nat) (x : Partition) (q k : Nat) : (s.setPart p x).job q k = s.job q k := rfl
@[simp] theorem State.setPart_byte_at (s : State) (p : Nat) (x : Partition) (k : Nat) : (s.setPart p x).byte k = s.byte k := rfl
@[simp] theorem State.setPart_tagAt_at (s : State) (p : Nat) (x : Partition) (k : Nat) : (s.setPart p x).tagAt k = s.tagAt k := rfl
@[simp] theorem State.setPart_lineInfo_at (s : State) (p : Nat) (x : Partition) (k : Nat) : (s.setPart p x).lineInfo k = s.lineInfo k := rfl
@[simp] theorem State.setPart_activeBank_at (s : State) (p : Nat) (x : Partition) (k : Nat) : (s.setPart p x).activeBank k = s.activeBank k := rfl
@[simp] theorem State.setPart_liveAt_at (s : State) (p : Nat) (x : Partition) (k : Nat) : (s.setPart p x).liveAt k = s.liveAt k := rfl
@[simp] theorem State.setPart_node_at (s : State) (p : Nat) (x : Partition) (k : Nat) : (s.setPart p x).node k = s.node k := rfl

@[simp] theorem State.setJob_banks (s : State) (p j : Nat) (x : Option Job) : (s.setJob p j x).banks = s.banks := rfl
@[simp] theorem State.setJob_clusters (s : State) (p j : Nat) (x : Option Job) : (s.setJob p j x).clusters = s.clusters := rfl
@[simp] theorem State.setJob_cores (s : State) (p j : Nat) (x : Option Job) : (s.setJob p j x).cores = s.cores := rfl
@[simp] theorem State.setJob_parts (s : State) (p j : Nat) (x : Option Job) : (s.setJob p j x).parts = s.parts := rfl
@[simp] theorem State.setJob_shareKeys (s : State) (p j : Nat) (x : Option Job) : (s.setJob p j x).shareKeys = s.shareKeys := rfl
@[simp] theorem State.setJob_mem (s : State) (p j : Nat) (x : Option Job) : (s.setJob p j x).mem = s.mem := rfl
@[simp] theorem State.setJob_tags (s : State) (p j : Nat) (x : Option Job) : (s.setJob p j x).tags = s.tags := rfl
@[simp] theorem State.setJob_lineMeta (s : State) (p j : Nat) (x : Option Job) : (s.setJob p j x).lineMeta = s.lineMeta := rfl
@[simp] theorem State.setJob_liveRegions (s : State) (p j : Nat) (x : Option Job) : (s.setJob p j x).liveRegions = s.liveRegions := rfl
@[simp] theorem State.setJob_badSectors (s : State) (p j : Nat) (x : Option Job) : (s.setJob p j x).badSectors = s.badSectors := rfl
@[simp] theorem State.setJob_badMetaBlocks (s : State) (p j : Nat) (x : Option Job) : (s.setJob p j x).badMetaBlocks = s.badMetaBlocks := rfl
@[simp] theorem State.setJob_softSectors (s : State) (p j : Nat) (x : Option Job) : (s.setJob p j x).softSectors = s.softSectors := rfl
@[simp] theorem State.setJob_badHost (s : State) (p j : Nat) (x : Option Job) : (s.setJob p j x).badHost = s.badHost := rfl
@[simp] theorem State.setJob_written (s : State) (p j : Nat) (x : Option Job) : (s.setJob p j x).written = s.written := rfl
@[simp] theorem State.setJob_records (s : State) (p j : Nat) (x : Option Job) : (s.setJob p j x).records = s.records := rfl
@[simp] theorem State.setJob_scopes (s : State) (p j : Nat) (x : Option Job) : (s.setJob p j x).scopes = s.scopes := rfl
@[simp] theorem State.setJob_nodes (s : State) (p j : Nat) (x : Option Job) : (s.setJob p j x).nodes = s.nodes := rfl
@[simp] theorem State.setJob_gens (s : State) (p j : Nat) (x : Option Job) : (s.setJob p j x).gens = s.gens := rfl
@[simp] theorem State.setJob_index (s : State) (p j : Nat) (x : Option Job) : (s.setJob p j x).index = s.index := rfl
@[simp] theorem State.setJob_directory (s : State) (p j : Nat) (x : Option Job) : (s.setJob p j x).directory = s.directory := rfl
@[simp] theorem State.setJob_peerEntries (s : State) (p j : Nat) (x : Option Job) : (s.setJob p j x).peerEntries = s.peerEntries := rfl
@[simp] theorem State.setJob_churn (s : State) (p j : Nat) (x : Option Job) : (s.setJob p j x).churn = s.churn := rfl
@[simp] theorem State.setJob_captures (s : State) (p j : Nat) (x : Option Job) : (s.setJob p j x).captures = s.captures := rfl
@[simp] theorem State.setJob_mgmt (s : State) (p j : Nat) (x : Option Job) : (s.setJob p j x).mgmt = s.mgmt := rfl
@[simp] theorem State.setJob_fuses (s : State) (p j : Nat) (x : Option Job) : (s.setJob p j x).fuses = s.fuses := rfl
@[simp] theorem State.setJob_now (s : State) (p j : Nat) (x : Option Job) : (s.setJob p j x).now = s.now := rfl
@[simp] theorem State.setJob_powered (s : State) (p j : Nat) (x : Option Job) : (s.setJob p j x).powered = s.powered := rfl
@[simp] theorem State.setJob_signals (s : State) (p j : Nat) (x : Option Job) : (s.setJob p j x).signals = s.signals := rfl
@[simp] theorem State.setJob_notified (s : State) (p j : Nat) (x : Option Job) : (s.setJob p j x).notified = s.notified := rfl
@[simp] theorem State.setJob_badCrock (s : State) (p j : Nat) (x : Option Job) : (s.setJob p j x).badCrock = s.badCrock := rfl
@[simp] theorem State.setJob_crockFull (s : State) (p j : Nat) (x : Option Job) : (s.setJob p j x).crockFull = s.crockFull := rfl
@[simp] theorem State.setJob_scrubs (s : State) (p j : Nat) (x : Option Job) : (s.setJob p j x).scrubs = s.scrubs := rfl
@[simp] theorem State.setJob_vfMbox (s : State) (p j : Nat) (x : Option Job) : (s.setJob p j x).vfMbox = s.vfMbox := rfl
@[simp] theorem State.setJob_msix (s : State) (p j : Nat) (x : Option Job) : (s.setJob p j x).msix = s.msix := rfl
@[simp] theorem State.setJob_cycles (s : State) (p j : Nat) (x : Option Job) : (s.setJob p j x).cycles = s.cycles := rfl
@[simp] theorem State.setJob_fabric (s : State) (p j : Nat) (x : Option Job) : (s.setJob p j x).fabric = s.fabric := rfl
@[simp] theorem State.setJob_stepNo (s : State) (p j : Nat) (x : Option Job) : (s.setJob p j x).stepNo = s.stepNo := rfl
@[simp] theorem State.setJob_freeNo (s : State) (p j : Nat) (x : Option Job) : (s.setJob p j x).freeNo = s.freeNo := rfl
@[simp] theorem State.setJob_walkNo (s : State) (p j : Nat) (x : Option Job) : (s.setJob p j x).walkNo = s.walkNo := rfl
@[simp] theorem State.setJob_unitNo (s : State) (p j : Nat) (x : Option Job) : (s.setJob p j x).unitNo = s.unitNo := rfl
@[simp] theorem State.setJob_agenda (s : State) (p j : Nat) (x : Option Job) : (s.setJob p j x).agenda = s.agenda := rfl
@[simp] theorem State.setJob_focus (s : State) (p j : Nat) (x : Option Job) : (s.setJob p j x).focus = s.focus := rfl
@[simp] theorem State.setJob_note (s : State) (p j : Nat) (x : Option Job) : (s.setJob p j x).note = s.note := rfl
@[simp] theorem State.setJob_bank_at (s : State) (p j : Nat) (x : Option Job) (k : Nat) : (s.setJob p j x).bank k = s.bank k := rfl
@[simp] theorem State.setJob_cluster_at (s : State) (p j : Nat) (x : Option Job) (k : Nat) : (s.setJob p j x).cluster k = s.cluster k := rfl
@[simp] theorem State.setJob_core_at (s : State) (p j : Nat) (x : Option Job) (k : Nat) : (s.setJob p j x).core k = s.core k := rfl
@[simp] theorem State.setJob_part_at (s : State) (p j : Nat) (x : Option Job) (k : Nat) : (s.setJob p j x).part k = s.part k := rfl
@[simp] theorem State.setJob_byte_at (s : State) (p j : Nat) (x : Option Job) (k : Nat) : (s.setJob p j x).byte k = s.byte k := rfl
@[simp] theorem State.setJob_tagAt_at (s : State) (p j : Nat) (x : Option Job) (k : Nat) : (s.setJob p j x).tagAt k = s.tagAt k := rfl
@[simp] theorem State.setJob_lineInfo_at (s : State) (p j : Nat) (x : Option Job) (k : Nat) : (s.setJob p j x).lineInfo k = s.lineInfo k := rfl
@[simp] theorem State.setJob_activeBank_at (s : State) (p j : Nat) (x : Option Job) (k : Nat) : (s.setJob p j x).activeBank k = s.activeBank k := rfl
@[simp] theorem State.setJob_liveAt_at (s : State) (p j : Nat) (x : Option Job) (k : Nat) : (s.setJob p j x).liveAt k = s.liveAt k := rfl
@[simp] theorem State.setJob_node_at (s : State) (p j : Nat) (x : Option Job) (k : Nat) : (s.setJob p j x).node k = s.node k := rfl

@[simp] theorem State.setSlot_banks (s : State) (d k : Nat) (x : Option ChurnSlot) : (s.setSlot d k x).banks = s.banks := rfl
@[simp] theorem State.setSlot_clusters (s : State) (d k : Nat) (x : Option ChurnSlot) : (s.setSlot d k x).clusters = s.clusters := rfl
@[simp] theorem State.setSlot_cores (s : State) (d k : Nat) (x : Option ChurnSlot) : (s.setSlot d k x).cores = s.cores := rfl
@[simp] theorem State.setSlot_parts (s : State) (d k : Nat) (x : Option ChurnSlot) : (s.setSlot d k x).parts = s.parts := rfl
@[simp] theorem State.setSlot_jobs (s : State) (d k : Nat) (x : Option ChurnSlot) : (s.setSlot d k x).jobs = s.jobs := rfl
@[simp] theorem State.setSlot_shareKeys (s : State) (d k : Nat) (x : Option ChurnSlot) : (s.setSlot d k x).shareKeys = s.shareKeys := rfl
@[simp] theorem State.setSlot_mem (s : State) (d k : Nat) (x : Option ChurnSlot) : (s.setSlot d k x).mem = s.mem := rfl
@[simp] theorem State.setSlot_tags (s : State) (d k : Nat) (x : Option ChurnSlot) : (s.setSlot d k x).tags = s.tags := rfl
@[simp] theorem State.setSlot_lineMeta (s : State) (d k : Nat) (x : Option ChurnSlot) : (s.setSlot d k x).lineMeta = s.lineMeta := rfl
@[simp] theorem State.setSlot_liveRegions (s : State) (d k : Nat) (x : Option ChurnSlot) : (s.setSlot d k x).liveRegions = s.liveRegions := rfl
@[simp] theorem State.setSlot_badSectors (s : State) (d k : Nat) (x : Option ChurnSlot) : (s.setSlot d k x).badSectors = s.badSectors := rfl
@[simp] theorem State.setSlot_badMetaBlocks (s : State) (d k : Nat) (x : Option ChurnSlot) : (s.setSlot d k x).badMetaBlocks = s.badMetaBlocks := rfl
@[simp] theorem State.setSlot_softSectors (s : State) (d k : Nat) (x : Option ChurnSlot) : (s.setSlot d k x).softSectors = s.softSectors := rfl
@[simp] theorem State.setSlot_badHost (s : State) (d k : Nat) (x : Option ChurnSlot) : (s.setSlot d k x).badHost = s.badHost := rfl
@[simp] theorem State.setSlot_written (s : State) (d k : Nat) (x : Option ChurnSlot) : (s.setSlot d k x).written = s.written := rfl
@[simp] theorem State.setSlot_records (s : State) (d k : Nat) (x : Option ChurnSlot) : (s.setSlot d k x).records = s.records := rfl
@[simp] theorem State.setSlot_scopes (s : State) (d k : Nat) (x : Option ChurnSlot) : (s.setSlot d k x).scopes = s.scopes := rfl
@[simp] theorem State.setSlot_nodes (s : State) (d k : Nat) (x : Option ChurnSlot) : (s.setSlot d k x).nodes = s.nodes := rfl
@[simp] theorem State.setSlot_gens (s : State) (d k : Nat) (x : Option ChurnSlot) : (s.setSlot d k x).gens = s.gens := rfl
@[simp] theorem State.setSlot_index (s : State) (d k : Nat) (x : Option ChurnSlot) : (s.setSlot d k x).index = s.index := rfl
@[simp] theorem State.setSlot_directory (s : State) (d k : Nat) (x : Option ChurnSlot) : (s.setSlot d k x).directory = s.directory := rfl
@[simp] theorem State.setSlot_peerEntries (s : State) (d k : Nat) (x : Option ChurnSlot) : (s.setSlot d k x).peerEntries = s.peerEntries := rfl
@[simp] theorem State.setSlot_captures (s : State) (d k : Nat) (x : Option ChurnSlot) : (s.setSlot d k x).captures = s.captures := rfl
@[simp] theorem State.setSlot_mgmt (s : State) (d k : Nat) (x : Option ChurnSlot) : (s.setSlot d k x).mgmt = s.mgmt := rfl
@[simp] theorem State.setSlot_fuses (s : State) (d k : Nat) (x : Option ChurnSlot) : (s.setSlot d k x).fuses = s.fuses := rfl
@[simp] theorem State.setSlot_now (s : State) (d k : Nat) (x : Option ChurnSlot) : (s.setSlot d k x).now = s.now := rfl
@[simp] theorem State.setSlot_powered (s : State) (d k : Nat) (x : Option ChurnSlot) : (s.setSlot d k x).powered = s.powered := rfl
@[simp] theorem State.setSlot_signals (s : State) (d k : Nat) (x : Option ChurnSlot) : (s.setSlot d k x).signals = s.signals := rfl
@[simp] theorem State.setSlot_notified (s : State) (d k : Nat) (x : Option ChurnSlot) : (s.setSlot d k x).notified = s.notified := rfl
@[simp] theorem State.setSlot_badCrock (s : State) (d k : Nat) (x : Option ChurnSlot) : (s.setSlot d k x).badCrock = s.badCrock := rfl
@[simp] theorem State.setSlot_crockFull (s : State) (d k : Nat) (x : Option ChurnSlot) : (s.setSlot d k x).crockFull = s.crockFull := rfl
@[simp] theorem State.setSlot_scrubs (s : State) (d k : Nat) (x : Option ChurnSlot) : (s.setSlot d k x).scrubs = s.scrubs := rfl
@[simp] theorem State.setSlot_vfMbox (s : State) (d k : Nat) (x : Option ChurnSlot) : (s.setSlot d k x).vfMbox = s.vfMbox := rfl
@[simp] theorem State.setSlot_msix (s : State) (d k : Nat) (x : Option ChurnSlot) : (s.setSlot d k x).msix = s.msix := rfl
@[simp] theorem State.setSlot_cycles (s : State) (d k : Nat) (x : Option ChurnSlot) : (s.setSlot d k x).cycles = s.cycles := rfl
@[simp] theorem State.setSlot_fabric (s : State) (d k : Nat) (x : Option ChurnSlot) : (s.setSlot d k x).fabric = s.fabric := rfl
@[simp] theorem State.setSlot_stepNo (s : State) (d k : Nat) (x : Option ChurnSlot) : (s.setSlot d k x).stepNo = s.stepNo := rfl
@[simp] theorem State.setSlot_freeNo (s : State) (d k : Nat) (x : Option ChurnSlot) : (s.setSlot d k x).freeNo = s.freeNo := rfl
@[simp] theorem State.setSlot_walkNo (s : State) (d k : Nat) (x : Option ChurnSlot) : (s.setSlot d k x).walkNo = s.walkNo := rfl
@[simp] theorem State.setSlot_unitNo (s : State) (d k : Nat) (x : Option ChurnSlot) : (s.setSlot d k x).unitNo = s.unitNo := rfl
@[simp] theorem State.setSlot_agenda (s : State) (d k : Nat) (x : Option ChurnSlot) : (s.setSlot d k x).agenda = s.agenda := rfl
@[simp] theorem State.setSlot_focus (s : State) (d k : Nat) (x : Option ChurnSlot) : (s.setSlot d k x).focus = s.focus := rfl
@[simp] theorem State.setSlot_note (s : State) (d k : Nat) (x : Option ChurnSlot) : (s.setSlot d k x).note = s.note := rfl
@[simp] theorem State.setSlot_bank_at (s : State) (d i : Nat) (x : Option ChurnSlot) (k : Nat) : (s.setSlot d i x).bank k = s.bank k := rfl
@[simp] theorem State.setSlot_cluster_at (s : State) (d i : Nat) (x : Option ChurnSlot) (k : Nat) : (s.setSlot d i x).cluster k = s.cluster k := rfl
@[simp] theorem State.setSlot_core_at (s : State) (d i : Nat) (x : Option ChurnSlot) (k : Nat) : (s.setSlot d i x).core k = s.core k := rfl
@[simp] theorem State.setSlot_part_at (s : State) (d i : Nat) (x : Option ChurnSlot) (k : Nat) : (s.setSlot d i x).part k = s.part k := rfl
@[simp] theorem State.setSlot_job_at (s : State) (d i : Nat) (x : Option ChurnSlot) (q k : Nat) : (s.setSlot d i x).job q k = s.job q k := rfl
@[simp] theorem State.setSlot_byte_at (s : State) (d i : Nat) (x : Option ChurnSlot) (k : Nat) : (s.setSlot d i x).byte k = s.byte k := rfl
@[simp] theorem State.setSlot_tagAt_at (s : State) (d i : Nat) (x : Option ChurnSlot) (k : Nat) : (s.setSlot d i x).tagAt k = s.tagAt k := rfl
@[simp] theorem State.setSlot_lineInfo_at (s : State) (d i : Nat) (x : Option ChurnSlot) (k : Nat) : (s.setSlot d i x).lineInfo k = s.lineInfo k := rfl
@[simp] theorem State.setSlot_activeBank_at (s : State) (d i : Nat) (x : Option ChurnSlot) (k : Nat) : (s.setSlot d i x).activeBank k = s.activeBank k := rfl
@[simp] theorem State.setSlot_liveAt_at (s : State) (d i : Nat) (x : Option ChurnSlot) (k : Nat) : (s.setSlot d i x).liveAt k = s.liveAt k := rfl
@[simp] theorem State.setSlot_node_at (s : State) (d i : Nat) (x : Option ChurnSlot) (k : Nat) : (s.setSlot d i x).node k = s.node k := rfl

@[simp] theorem State.setTag_banks (s : State) (a : Nat) (t : Bool) : (s.setTag a t).banks = s.banks := rfl
@[simp] theorem State.setTag_clusters (s : State) (a : Nat) (t : Bool) : (s.setTag a t).clusters = s.clusters := rfl
@[simp] theorem State.setTag_cores (s : State) (a : Nat) (t : Bool) : (s.setTag a t).cores = s.cores := rfl
@[simp] theorem State.setTag_parts (s : State) (a : Nat) (t : Bool) : (s.setTag a t).parts = s.parts := rfl
@[simp] theorem State.setTag_jobs (s : State) (a : Nat) (t : Bool) : (s.setTag a t).jobs = s.jobs := rfl
@[simp] theorem State.setTag_shareKeys (s : State) (a : Nat) (t : Bool) : (s.setTag a t).shareKeys = s.shareKeys := rfl
@[simp] theorem State.setTag_mem (s : State) (a : Nat) (t : Bool) : (s.setTag a t).mem = s.mem := rfl
@[simp] theorem State.setTag_lineMeta (s : State) (a : Nat) (t : Bool) : (s.setTag a t).lineMeta = s.lineMeta := rfl
@[simp] theorem State.setTag_liveRegions (s : State) (a : Nat) (t : Bool) : (s.setTag a t).liveRegions = s.liveRegions := rfl
@[simp] theorem State.setTag_badSectors (s : State) (a : Nat) (t : Bool) : (s.setTag a t).badSectors = s.badSectors := rfl
@[simp] theorem State.setTag_badMetaBlocks (s : State) (a : Nat) (t : Bool) : (s.setTag a t).badMetaBlocks = s.badMetaBlocks := rfl
@[simp] theorem State.setTag_softSectors (s : State) (a : Nat) (t : Bool) : (s.setTag a t).softSectors = s.softSectors := rfl
@[simp] theorem State.setTag_badHost (s : State) (a : Nat) (t : Bool) : (s.setTag a t).badHost = s.badHost := rfl
@[simp] theorem State.setTag_written (s : State) (a : Nat) (t : Bool) : (s.setTag a t).written = s.written := rfl
@[simp] theorem State.setTag_records (s : State) (a : Nat) (t : Bool) : (s.setTag a t).records = s.records := rfl
@[simp] theorem State.setTag_scopes (s : State) (a : Nat) (t : Bool) : (s.setTag a t).scopes = s.scopes := rfl
@[simp] theorem State.setTag_nodes (s : State) (a : Nat) (t : Bool) : (s.setTag a t).nodes = s.nodes := rfl
@[simp] theorem State.setTag_gens (s : State) (a : Nat) (t : Bool) : (s.setTag a t).gens = s.gens := rfl
@[simp] theorem State.setTag_index (s : State) (a : Nat) (t : Bool) : (s.setTag a t).index = s.index := rfl
@[simp] theorem State.setTag_directory (s : State) (a : Nat) (t : Bool) : (s.setTag a t).directory = s.directory := rfl
@[simp] theorem State.setTag_peerEntries (s : State) (a : Nat) (t : Bool) : (s.setTag a t).peerEntries = s.peerEntries := rfl
@[simp] theorem State.setTag_churn (s : State) (a : Nat) (t : Bool) : (s.setTag a t).churn = s.churn := rfl
@[simp] theorem State.setTag_captures (s : State) (a : Nat) (t : Bool) : (s.setTag a t).captures = s.captures := rfl
@[simp] theorem State.setTag_mgmt (s : State) (a : Nat) (t : Bool) : (s.setTag a t).mgmt = s.mgmt := rfl
@[simp] theorem State.setTag_fuses (s : State) (a : Nat) (t : Bool) : (s.setTag a t).fuses = s.fuses := rfl
@[simp] theorem State.setTag_now (s : State) (a : Nat) (t : Bool) : (s.setTag a t).now = s.now := rfl
@[simp] theorem State.setTag_powered (s : State) (a : Nat) (t : Bool) : (s.setTag a t).powered = s.powered := rfl
@[simp] theorem State.setTag_signals (s : State) (a : Nat) (t : Bool) : (s.setTag a t).signals = s.signals := rfl
@[simp] theorem State.setTag_notified (s : State) (a : Nat) (t : Bool) : (s.setTag a t).notified = s.notified := rfl
@[simp] theorem State.setTag_badCrock (s : State) (a : Nat) (t : Bool) : (s.setTag a t).badCrock = s.badCrock := rfl
@[simp] theorem State.setTag_crockFull (s : State) (a : Nat) (t : Bool) : (s.setTag a t).crockFull = s.crockFull := rfl
@[simp] theorem State.setTag_scrubs (s : State) (a : Nat) (t : Bool) : (s.setTag a t).scrubs = s.scrubs := rfl
@[simp] theorem State.setTag_vfMbox (s : State) (a : Nat) (t : Bool) : (s.setTag a t).vfMbox = s.vfMbox := rfl
@[simp] theorem State.setTag_msix (s : State) (a : Nat) (t : Bool) : (s.setTag a t).msix = s.msix := rfl
@[simp] theorem State.setTag_cycles (s : State) (a : Nat) (t : Bool) : (s.setTag a t).cycles = s.cycles := rfl
@[simp] theorem State.setTag_fabric (s : State) (a : Nat) (t : Bool) : (s.setTag a t).fabric = s.fabric := rfl
@[simp] theorem State.setTag_stepNo (s : State) (a : Nat) (t : Bool) : (s.setTag a t).stepNo = s.stepNo := rfl
@[simp] theorem State.setTag_freeNo (s : State) (a : Nat) (t : Bool) : (s.setTag a t).freeNo = s.freeNo := rfl
@[simp] theorem State.setTag_walkNo (s : State) (a : Nat) (t : Bool) : (s.setTag a t).walkNo = s.walkNo := rfl
@[simp] theorem State.setTag_unitNo (s : State) (a : Nat) (t : Bool) : (s.setTag a t).unitNo = s.unitNo := rfl
@[simp] theorem State.setTag_agenda (s : State) (a : Nat) (t : Bool) : (s.setTag a t).agenda = s.agenda := rfl
@[simp] theorem State.setTag_focus (s : State) (a : Nat) (t : Bool) : (s.setTag a t).focus = s.focus := rfl
@[simp] theorem State.setTag_note (s : State) (a : Nat) (t : Bool) : (s.setTag a t).note = s.note := rfl
@[simp] theorem State.setTag_bank_at (s : State) (a : Nat) (t : Bool) (k : Nat) : (s.setTag a t).bank k = s.bank k := rfl
@[simp] theorem State.setTag_cluster_at (s : State) (a : Nat) (t : Bool) (k : Nat) : (s.setTag a t).cluster k = s.cluster k := rfl
@[simp] theorem State.setTag_core_at (s : State) (a : Nat) (t : Bool) (k : Nat) : (s.setTag a t).core k = s.core k := rfl
@[simp] theorem State.setTag_part_at (s : State) (a : Nat) (t : Bool) (k : Nat) : (s.setTag a t).part k = s.part k := rfl
@[simp] theorem State.setTag_job_at (s : State) (a : Nat) (t : Bool) (q k : Nat) : (s.setTag a t).job q k = s.job q k := rfl
@[simp] theorem State.setTag_byte_at (s : State) (a : Nat) (t : Bool) (k : Nat) : (s.setTag a t).byte k = s.byte k := rfl
@[simp] theorem State.setTag_lineInfo_at (s : State) (a : Nat) (t : Bool) (k : Nat) : (s.setTag a t).lineInfo k = s.lineInfo k := rfl
@[simp] theorem State.setTag_activeBank_at (s : State) (a : Nat) (t : Bool) (k : Nat) : (s.setTag a t).activeBank k = s.activeBank k := rfl
@[simp] theorem State.setTag_liveAt_at (s : State) (a : Nat) (t : Bool) (k : Nat) : (s.setTag a t).liveAt k = s.liveAt k := rfl
@[simp] theorem State.setTag_node_at (s : State) (a : Nat) (t : Bool) (k : Nat) : (s.setTag a t).node k = s.node k := rfl

@[simp] theorem State.setLine_banks (s : State) (l : Nat) (m : LineMeta) : (s.setLine l m).banks = s.banks := rfl
@[simp] theorem State.setLine_clusters (s : State) (l : Nat) (m : LineMeta) : (s.setLine l m).clusters = s.clusters := rfl
@[simp] theorem State.setLine_cores (s : State) (l : Nat) (m : LineMeta) : (s.setLine l m).cores = s.cores := rfl
@[simp] theorem State.setLine_parts (s : State) (l : Nat) (m : LineMeta) : (s.setLine l m).parts = s.parts := rfl
@[simp] theorem State.setLine_jobs (s : State) (l : Nat) (m : LineMeta) : (s.setLine l m).jobs = s.jobs := rfl
@[simp] theorem State.setLine_shareKeys (s : State) (l : Nat) (m : LineMeta) : (s.setLine l m).shareKeys = s.shareKeys := rfl
@[simp] theorem State.setLine_mem (s : State) (l : Nat) (m : LineMeta) : (s.setLine l m).mem = s.mem := rfl
@[simp] theorem State.setLine_tags (s : State) (l : Nat) (m : LineMeta) : (s.setLine l m).tags = s.tags := rfl
@[simp] theorem State.setLine_liveRegions (s : State) (l : Nat) (m : LineMeta) : (s.setLine l m).liveRegions = s.liveRegions := rfl
@[simp] theorem State.setLine_badSectors (s : State) (l : Nat) (m : LineMeta) : (s.setLine l m).badSectors = s.badSectors := rfl
@[simp] theorem State.setLine_badMetaBlocks (s : State) (l : Nat) (m : LineMeta) : (s.setLine l m).badMetaBlocks = s.badMetaBlocks := rfl
@[simp] theorem State.setLine_softSectors (s : State) (l : Nat) (m : LineMeta) : (s.setLine l m).softSectors = s.softSectors := rfl
@[simp] theorem State.setLine_badHost (s : State) (l : Nat) (m : LineMeta) : (s.setLine l m).badHost = s.badHost := rfl
@[simp] theorem State.setLine_written (s : State) (l : Nat) (m : LineMeta) : (s.setLine l m).written = s.written := rfl
@[simp] theorem State.setLine_records (s : State) (l : Nat) (m : LineMeta) : (s.setLine l m).records = s.records := rfl
@[simp] theorem State.setLine_scopes (s : State) (l : Nat) (m : LineMeta) : (s.setLine l m).scopes = s.scopes := rfl
@[simp] theorem State.setLine_nodes (s : State) (l : Nat) (m : LineMeta) : (s.setLine l m).nodes = s.nodes := rfl
@[simp] theorem State.setLine_gens (s : State) (l : Nat) (m : LineMeta) : (s.setLine l m).gens = s.gens := rfl
@[simp] theorem State.setLine_index (s : State) (l : Nat) (m : LineMeta) : (s.setLine l m).index = s.index := rfl
@[simp] theorem State.setLine_directory (s : State) (l : Nat) (m : LineMeta) : (s.setLine l m).directory = s.directory := rfl
@[simp] theorem State.setLine_peerEntries (s : State) (l : Nat) (m : LineMeta) : (s.setLine l m).peerEntries = s.peerEntries := rfl
@[simp] theorem State.setLine_churn (s : State) (l : Nat) (m : LineMeta) : (s.setLine l m).churn = s.churn := rfl
@[simp] theorem State.setLine_captures (s : State) (l : Nat) (m : LineMeta) : (s.setLine l m).captures = s.captures := rfl
@[simp] theorem State.setLine_mgmt (s : State) (l : Nat) (m : LineMeta) : (s.setLine l m).mgmt = s.mgmt := rfl
@[simp] theorem State.setLine_fuses (s : State) (l : Nat) (m : LineMeta) : (s.setLine l m).fuses = s.fuses := rfl
@[simp] theorem State.setLine_now (s : State) (l : Nat) (m : LineMeta) : (s.setLine l m).now = s.now := rfl
@[simp] theorem State.setLine_powered (s : State) (l : Nat) (m : LineMeta) : (s.setLine l m).powered = s.powered := rfl
@[simp] theorem State.setLine_signals (s : State) (l : Nat) (m : LineMeta) : (s.setLine l m).signals = s.signals := rfl
@[simp] theorem State.setLine_notified (s : State) (l : Nat) (m : LineMeta) : (s.setLine l m).notified = s.notified := rfl
@[simp] theorem State.setLine_badCrock (s : State) (l : Nat) (m : LineMeta) : (s.setLine l m).badCrock = s.badCrock := rfl
@[simp] theorem State.setLine_crockFull (s : State) (l : Nat) (m : LineMeta) : (s.setLine l m).crockFull = s.crockFull := rfl
@[simp] theorem State.setLine_scrubs (s : State) (l : Nat) (m : LineMeta) : (s.setLine l m).scrubs = s.scrubs := rfl
@[simp] theorem State.setLine_vfMbox (s : State) (l : Nat) (m : LineMeta) : (s.setLine l m).vfMbox = s.vfMbox := rfl
@[simp] theorem State.setLine_msix (s : State) (l : Nat) (m : LineMeta) : (s.setLine l m).msix = s.msix := rfl
@[simp] theorem State.setLine_cycles (s : State) (l : Nat) (m : LineMeta) : (s.setLine l m).cycles = s.cycles := rfl
@[simp] theorem State.setLine_fabric (s : State) (l : Nat) (m : LineMeta) : (s.setLine l m).fabric = s.fabric := rfl
@[simp] theorem State.setLine_stepNo (s : State) (l : Nat) (m : LineMeta) : (s.setLine l m).stepNo = s.stepNo := rfl
@[simp] theorem State.setLine_freeNo (s : State) (l : Nat) (m : LineMeta) : (s.setLine l m).freeNo = s.freeNo := rfl
@[simp] theorem State.setLine_walkNo (s : State) (l : Nat) (m : LineMeta) : (s.setLine l m).walkNo = s.walkNo := rfl
@[simp] theorem State.setLine_unitNo (s : State) (l : Nat) (m : LineMeta) : (s.setLine l m).unitNo = s.unitNo := rfl
@[simp] theorem State.setLine_agenda (s : State) (l : Nat) (m : LineMeta) : (s.setLine l m).agenda = s.agenda := rfl
@[simp] theorem State.setLine_focus (s : State) (l : Nat) (m : LineMeta) : (s.setLine l m).focus = s.focus := rfl
@[simp] theorem State.setLine_note (s : State) (l : Nat) (m : LineMeta) : (s.setLine l m).note = s.note := rfl
@[simp] theorem State.setLine_bank_at (s : State) (l : Nat) (m : LineMeta) (k : Nat) : (s.setLine l m).bank k = s.bank k := rfl
@[simp] theorem State.setLine_cluster_at (s : State) (l : Nat) (m : LineMeta) (k : Nat) : (s.setLine l m).cluster k = s.cluster k := rfl
@[simp] theorem State.setLine_core_at (s : State) (l : Nat) (m : LineMeta) (k : Nat) : (s.setLine l m).core k = s.core k := rfl
@[simp] theorem State.setLine_part_at (s : State) (l : Nat) (m : LineMeta) (k : Nat) : (s.setLine l m).part k = s.part k := rfl
@[simp] theorem State.setLine_job_at (s : State) (l : Nat) (m : LineMeta) (q k : Nat) : (s.setLine l m).job q k = s.job q k := rfl
@[simp] theorem State.setLine_byte_at (s : State) (l : Nat) (m : LineMeta) (k : Nat) : (s.setLine l m).byte k = s.byte k := rfl
@[simp] theorem State.setLine_tagAt_at (s : State) (l : Nat) (m : LineMeta) (k : Nat) : (s.setLine l m).tagAt k = s.tagAt k := rfl
@[simp] theorem State.setLine_activeBank_at (s : State) (l : Nat) (m : LineMeta) (k : Nat) : (s.setLine l m).activeBank k = s.activeBank k := rfl
@[simp] theorem State.setLine_liveAt_at (s : State) (l : Nat) (m : LineMeta) (k : Nat) : (s.setLine l m).liveAt k = s.liveAt k := rfl
@[simp] theorem State.setLine_node_at (s : State) (l : Nat) (m : LineMeta) (k : Nat) : (s.setLine l m).node k = s.node k := rfl

@[simp] theorem State.signal_banks (s : State) (e : Signal) : (s.signal e).banks = s.banks := rfl
@[simp] theorem State.signal_clusters (s : State) (e : Signal) : (s.signal e).clusters = s.clusters := rfl
@[simp] theorem State.signal_cores (s : State) (e : Signal) : (s.signal e).cores = s.cores := rfl
@[simp] theorem State.signal_parts (s : State) (e : Signal) : (s.signal e).parts = s.parts := rfl
@[simp] theorem State.signal_jobs (s : State) (e : Signal) : (s.signal e).jobs = s.jobs := rfl
@[simp] theorem State.signal_shareKeys (s : State) (e : Signal) : (s.signal e).shareKeys = s.shareKeys := rfl
@[simp] theorem State.signal_mem (s : State) (e : Signal) : (s.signal e).mem = s.mem := rfl
@[simp] theorem State.signal_tags (s : State) (e : Signal) : (s.signal e).tags = s.tags := rfl
@[simp] theorem State.signal_lineMeta (s : State) (e : Signal) : (s.signal e).lineMeta = s.lineMeta := rfl
@[simp] theorem State.signal_liveRegions (s : State) (e : Signal) : (s.signal e).liveRegions = s.liveRegions := rfl
@[simp] theorem State.signal_badSectors (s : State) (e : Signal) : (s.signal e).badSectors = s.badSectors := rfl
@[simp] theorem State.signal_badMetaBlocks (s : State) (e : Signal) : (s.signal e).badMetaBlocks = s.badMetaBlocks := rfl
@[simp] theorem State.signal_softSectors (s : State) (e : Signal) : (s.signal e).softSectors = s.softSectors := rfl
@[simp] theorem State.signal_badHost (s : State) (e : Signal) : (s.signal e).badHost = s.badHost := rfl
@[simp] theorem State.signal_written (s : State) (e : Signal) : (s.signal e).written = s.written := rfl
@[simp] theorem State.signal_records (s : State) (e : Signal) : (s.signal e).records = s.records := rfl
@[simp] theorem State.signal_scopes (s : State) (e : Signal) : (s.signal e).scopes = s.scopes := rfl
@[simp] theorem State.signal_nodes (s : State) (e : Signal) : (s.signal e).nodes = s.nodes := rfl
@[simp] theorem State.signal_gens (s : State) (e : Signal) : (s.signal e).gens = s.gens := rfl
@[simp] theorem State.signal_index (s : State) (e : Signal) : (s.signal e).index = s.index := rfl
@[simp] theorem State.signal_directory (s : State) (e : Signal) : (s.signal e).directory = s.directory := rfl
@[simp] theorem State.signal_peerEntries (s : State) (e : Signal) : (s.signal e).peerEntries = s.peerEntries := rfl
@[simp] theorem State.signal_churn (s : State) (e : Signal) : (s.signal e).churn = s.churn := rfl
@[simp] theorem State.signal_captures (s : State) (e : Signal) : (s.signal e).captures = s.captures := rfl
@[simp] theorem State.signal_mgmt (s : State) (e : Signal) : (s.signal e).mgmt = s.mgmt := rfl
@[simp] theorem State.signal_fuses (s : State) (e : Signal) : (s.signal e).fuses = s.fuses := rfl
@[simp] theorem State.signal_now (s : State) (e : Signal) : (s.signal e).now = s.now := rfl
@[simp] theorem State.signal_powered (s : State) (e : Signal) : (s.signal e).powered = s.powered := rfl
@[simp] theorem State.signal_notified (s : State) (e : Signal) : (s.signal e).notified = s.notified := rfl
@[simp] theorem State.signal_badCrock (s : State) (e : Signal) : (s.signal e).badCrock = s.badCrock := rfl
@[simp] theorem State.signal_crockFull (s : State) (e : Signal) : (s.signal e).crockFull = s.crockFull := rfl
@[simp] theorem State.signal_scrubs (s : State) (e : Signal) : (s.signal e).scrubs = s.scrubs := rfl
@[simp] theorem State.signal_vfMbox (s : State) (e : Signal) : (s.signal e).vfMbox = s.vfMbox := rfl
@[simp] theorem State.signal_msix (s : State) (e : Signal) : (s.signal e).msix = s.msix := rfl
@[simp] theorem State.signal_cycles (s : State) (e : Signal) : (s.signal e).cycles = s.cycles := rfl
@[simp] theorem State.signal_fabric (s : State) (e : Signal) : (s.signal e).fabric = s.fabric := rfl
@[simp] theorem State.signal_stepNo (s : State) (e : Signal) : (s.signal e).stepNo = s.stepNo := rfl
@[simp] theorem State.signal_freeNo (s : State) (e : Signal) : (s.signal e).freeNo = s.freeNo := rfl
@[simp] theorem State.signal_walkNo (s : State) (e : Signal) : (s.signal e).walkNo = s.walkNo := rfl
@[simp] theorem State.signal_unitNo (s : State) (e : Signal) : (s.signal e).unitNo = s.unitNo := rfl
@[simp] theorem State.signal_agenda (s : State) (e : Signal) : (s.signal e).agenda = s.agenda := rfl
@[simp] theorem State.signal_focus (s : State) (e : Signal) : (s.signal e).focus = s.focus := rfl
@[simp] theorem State.signal_note (s : State) (e : Signal) : (s.signal e).note = s.note := rfl
@[simp] theorem State.signal_bank_at (s : State) (e : Signal) (k : Nat) : (s.signal e).bank k = s.bank k := rfl
@[simp] theorem State.signal_cluster_at (s : State) (e : Signal) (k : Nat) : (s.signal e).cluster k = s.cluster k := rfl
@[simp] theorem State.signal_core_at (s : State) (e : Signal) (k : Nat) : (s.signal e).core k = s.core k := rfl
@[simp] theorem State.signal_part_at (s : State) (e : Signal) (k : Nat) : (s.signal e).part k = s.part k := rfl
@[simp] theorem State.signal_job_at (s : State) (e : Signal) (q k : Nat) : (s.signal e).job q k = s.job q k := rfl
@[simp] theorem State.signal_byte_at (s : State) (e : Signal) (k : Nat) : (s.signal e).byte k = s.byte k := rfl
@[simp] theorem State.signal_tagAt_at (s : State) (e : Signal) (k : Nat) : (s.signal e).tagAt k = s.tagAt k := rfl
@[simp] theorem State.signal_lineInfo_at (s : State) (e : Signal) (k : Nat) : (s.signal e).lineInfo k = s.lineInfo k := rfl
@[simp] theorem State.signal_activeBank_at (s : State) (e : Signal) (k : Nat) : (s.signal e).activeBank k = s.activeBank k := rfl
@[simp] theorem State.signal_liveAt_at (s : State) (e : Signal) (k : Nat) : (s.signal e).liveAt k = s.liveAt k := rfl
@[simp] theorem State.signal_node_at (s : State) (e : Signal) (k : Nat) : (s.signal e).node k = s.node k := rfl

@[simp] theorem State.bank_setBank_same (s : State) (k : Nat) (x : Bank) : (s.setBank k x).bank k = x := SMap.get_set_same _ _ _ _
theorem State.bank_setBank_other (s : State) {k j : Nat} (x : Bank) (h : j ≠ k) : (s.setBank k x).bank j = s.bank j := SMap.get_set_other _ _ _ h
@[simp] theorem State.cluster_setCluster_same (s : State) (k : Nat) (x : Cluster) : (s.setCluster k x).cluster k = x := SMap.get_set_same _ _ _ _
theorem State.cluster_setCluster_other (s : State) {k j : Nat} (x : Cluster) (h : j ≠ k) : (s.setCluster k x).cluster j = s.cluster j := SMap.get_set_other _ _ _ h
@[simp] theorem State.core_setCore_same (s : State) (k : Nat) (x : Core) : (s.setCore k x).core k = x := SMap.get_set_same _ _ _ _
theorem State.core_setCore_other (s : State) {k j : Nat} (x : Core) (h : j ≠ k) : (s.setCore k x).core j = s.core j := SMap.get_set_other _ _ _ h
@[simp] theorem State.part_setPart_same (s : State) (k : Nat) (x : Partition) : (s.setPart k x).part k = x := SMap.get_set_same _ _ _ _
theorem State.part_setPart_other (s : State) {k j : Nat} (x : Partition) (h : j ≠ k) : (s.setPart k x).part j = s.part j := SMap.get_set_other _ _ _ h

end Sys2Proof.Machine
end

