-- ==== Sys2Proof/Laws/Memory.lean ====
section
/-! SUPPORT. Memory: what a store does to bytes, and that it keeps the canonical form. -/

namespace Sys2Proof.Machine

set_option Elab.async false

theorem Memory.wf_pokeCells {m : List Host.Cell} (cs : List (Nat × Byte)) (h : Memory.wf m = true) :
    Memory.wf (pokeCells m cs) = true := by
  induction cs generalizing m with
  | nil => exact h
  | cons c cs ih => exact ih (SMap.wf_set h)

theorem Memory.wf_clear {m : List Host.Cell} {lo hi : Nat} (h : Memory.wf m = true) :
    Memory.wf (SMap.clear lo hi m) = true := SMap.wf_clear h

theorem Memory.wf_filter {m : List Host.Cell} (p : Host.Cell → Bool) (h : Memory.wf m = true) :
    Memory.wf (m.filter p) = true := SMap.wf_filter p h

/-- The memory of the reset state is canonical. -/
theorem Memory.wf_reset : Memory.wf State.reset.mem = true := rfl

/-- Bytes outside the cells are as they were. -/
theorem get_pokeCells_other (m : List Host.Cell) (cs : List (Nat × Byte)) (a : Nat) (h : ∀ c ∈ cs, c.1 ≠ a) :
    SMap.get 0 (pokeCells m cs) a = SMap.get 0 m a := by
  induction cs generalizing m with
  | nil => rfl
  | cons c cs ih =>
    unfold pokeCells
    rw [ih _ (fun x hx => h x (List.mem_cons_of_mem _ hx))]
    exact SMap.get_set_other 0 m _ (Ne.symm (h c List.mem_cons_self))

theorem mem_cellsAt {α : Type} (bs : List α) (pa : Nat) {c : Nat × α} (h : c ∈ cellsAt pa bs) :
    pa ≤ c.1 ∧ c.1 < pa + bs.length := by
  induction bs generalizing pa with
  | nil => simp [cellsAt] at h
  | cons b bs ih =>
    simp only [cellsAt, List.mem_cons] at h
    rcases h with rfl | h
    · simp
    · have := ih (pa + 1) h; simp only [List.length_cons]; omega

/-- A run of bytes written at consecutive addresses reads back. -/
theorem get_pokeCells_cellsAt (m : List Host.Cell) (pa : Nat) (bs : List Byte) (k : Nat) (hk : k < bs.length) :
    SMap.get 0 (pokeCells m (cellsAt pa bs)) (pa + k) = bs[k] := by
  induction bs generalizing m pa k with
  | nil => simp at hk
  | cons b bs ih =>
    unfold cellsAt pokeCells
    cases k with
    | zero =>
      rw [get_pokeCells_other]
      · simp
      · intro c hc; have := mem_cellsAt bs (pa + 1) hc; omega
    | succ k =>
      have hk' : k < bs.length := by simpa using hk
      have := ih (SMap.set 0 m pa b) (pa + 1) k hk'
      rw [show pa + (k + 1) = pa + 1 + k by omega, this]; simp

theorem length_toBytes (n v : Nat) : (toBytes n v).length = n := by
  induction n generalizing v with
  | zero => rfl
  | succ n ih => simp [toBytes, ih]

theorem ofBytes_toBytes (n v : Nat) : ofBytes (toBytes n v) = v % 256 ^ n := by
  induction n generalizing v with
  | zero => simp [toBytes, ofBytes, Nat.mod_one]
  | succ n ih =>
    simp only [toBytes, ofBytes, ih, BitVec.toNat_ofNat]
    rw [show 256 ^ (n + 1) = 256 * 256 ^ n by rw [Nat.pow_succ, Nat.mul_comm], Nat.mod_mul]

/-! ## What a store leaves alone -/

theorem State.sealLines_mem (s : State) (raw ls : List Nat) : (s.sealLines raw ls).mem = s.mem := by
  induction ls generalizing s with
  | nil => rfl
  | cons l ls ih => unfold State.sealLines; rw [ih]; dsimp only; split <;> simp

theorem State.sealLines_tags (s : State) (raw ls : List Nat) : (s.sealLines raw ls).tags = s.tags := by
  induction ls generalizing s with
  | nil => rfl
  | cons l ls ih => unfold State.sealLines; rw [ih]; dsimp only; split <;> simp

theorem State.sealLines_eq (s : State) (raw ls : List Nat) :
    s.sealLines raw ls = { s with lineMeta := (s.sealLines raw ls).lineMeta } := by
  induction ls generalizing s with
  | nil => rfl
  | cons l ls ih =>
    unfold State.sealLines
    dsimp only
    split
    · rw [ih]; rfl
    · exact ih s

theorem State.freshSectors_eq (s : State) (cells : List (Nat × Byte)) (ls : List Nat) :
    s.freshSectors cells ls
      = { s with badSectors := (s.freshSectors cells ls).badSectors, softSectors := (s.freshSectors cells ls).softSectors } := by
  unfold State.freshSectors; split <;> rfl

/-- Regions that become live take fresh metadata: nothing else changes. -/
theorem State.wakeRegions_eq (s : State) (rs : List Nat) : s.wakeRegions rs = { s with
    liveRegions := (s.wakeRegions rs).liveRegions, lineMeta := (s.wakeRegions rs).lineMeta, tags := (s.wakeRegions rs).tags
    badMetaBlocks := (s.wakeRegions rs).badMetaBlocks, badSectors := (s.wakeRegions rs).badSectors
    softSectors := (s.wakeRegions rs).softSectors } := by
  induction rs generalizing s with
  | nil => rfl
  | cons r rs ih =>
    unfold State.wakeRegions
    split
    · exact ih s
    · rw [ih]

/-- A region that is live stays as it is when others become live. -/
theorem State.wakeRegions_live (s : State) (rs : List Nat) (h : ∀ r ∈ rs, SMap.get false s.liveRegions r = true) :
    s.wakeRegions rs = s := by
  induction rs with
  | nil => rfl
  | cons r rs ih =>
    unfold State.wakeRegions
    rw [if_pos (h r List.mem_cons_self)]
    exact ih (fun q hq => h q (List.mem_cons_of_mem _ hq))

/-- A store changes bytes, tags, the metadata that follows a write, monitors, watches, scrub versions and the region slots over the frames:
nothing else. -/
theorem State.store_eq (s : State) (cells : List (Nat × Byte)) :
    s.store cells = { s with
      churn := invalidateFrames (dedupNat (cells.map (fun c => c.1 / 65536))) s.churn
      banks := (s.store cells).banks
      mem := pokeCells s.mem cells
      tags := setTags (s.wakeRegions (hbmRegions cells)).tags false (wordsOf cells)
      scrubs := changeScrubs (cellLines cells) s.scrubs
      written := (s.store cells).written
      liveRegions := (s.store cells).liveRegions
      badSectors := (s.store cells).badSectors
      softSectors := (s.store cells).softSectors
      badMetaBlocks := (s.store cells).badMetaBlocks
      lineMeta := (s.store cells).lineMeta } := by
  unfold State.store
  dsimp only
  generalize hy : s.wakeRegions (hbmRegions cells) = y
  generalize hx : y.freshSectors cells (cellLines cells) = x
  have hf := State.freshSectors_eq y cells (cellLines cells)
  have hw := State.wakeRegions_eq s (hbmRegions cells)
  rw [hx] at hf
  rw [hy] at hw
  have hm : x.mem = s.mem := by rw [hf, hw]
  have ht : x.tags = y.tags := by rw [hf]
  have hc : x.churn = s.churn := by rw [hf, hw]
  have hs : x.scrubs = s.scrubs := by rw [hf, hw]
  rw [State.sealLines_eq, hm, ht, hc, hs, hf, hw]

@[simp] theorem State.store_mem (s : State) (cells : List (Nat × Byte)) : (s.store cells).mem = pokeCells s.mem cells := by
  rw [State.store_eq]

theorem State.store_tags (s : State) (cells : List (Nat × Byte)) :
    (s.store cells).tags = setTags (s.wakeRegions (hbmRegions cells)).tags false (wordsOf cells) := by
  rw [State.store_eq]

theorem hitMonitors_get (lines : List Nat) (m : SMap Bank) (k : Nat) :
    ∃ mo, SMap.get {} (hitMonitors lines m) k = { SMap.get {} m k with monitor := mo } := by
  induction m with
  | nil => exact ⟨none, rfl⟩
  | cons x m ih =>
    unfold hitMonitors SMap.get
    split
    · split
      · split
        · exact ⟨_, rfl⟩
        · exact ⟨_, rfl⟩
      · exact ⟨_, rfl⟩
    · exact ih

theorem tellWatches_get (words : List Nat) (value : Nat → Nat) (m : SMap Bank) (k : Nat) :
    ∃ w, SMap.get {} (tellWatches words value m) k = { SMap.get {} m k with watch := w } := by
  induction m with
  | nil => exact ⟨none, rfl⟩
  | cons x m ih =>
    unfold tellWatches SMap.get
    split
    · split
      · split
        · exact ⟨_, rfl⟩
        · exact ⟨_, rfl⟩
      · exact ⟨_, rfl⟩
    · exact ih

/-- Of a bank a store changes only its monitor and its watch. -/
theorem State.store_bank (s : State) (cells : List (Nat × Byte)) (k : Nat) :
    ∃ mo w, (s.store cells).bank k = { s.bank k with monitor := mo, watch := w } := by
  have hb : ∃ v, (s.store cells).banks = tellWatches (wordsOf cells) v (hitMonitors (cellLines cells) s.banks) := by
    unfold State.store
    dsimp only
    rw [State.sealLines_eq, State.freshSectors_eq, State.wakeRegions_eq]
    exact ⟨_, rfl⟩
  obtain ⟨v, hv⟩ := hb
  obtain ⟨w, hw⟩ := tellWatches_get (wordsOf cells) v (hitMonitors (cellLines cells) s.banks) k
  obtain ⟨mo, hm⟩ := hitMonitors_get (cellLines cells) s.banks k
  exact ⟨mo, w, by unfold State.bank; rw [hv, hw, hm]⟩

/-- A store keeps the canonical form. -/
theorem Memory.wf_store {s : State} (cells : List (Nat × Byte)) (h : Memory.wf s.mem = true) :
    Memory.wf (s.store cells).mem = true := by
  rw [State.store_mem]; exact Memory.wf_pokeCells cells h

/-- A byte outside the stored run reads as before. -/
theorem State.store_byte_other (s : State) (pa : Nat) (bs : List Byte) (a : Nat) (h : a < pa ∨ pa + bs.length ≤ a) :
    (s.store (cellsAt pa bs)).byte a = s.byte a := by
  unfold State.byte
  rw [State.store_mem, get_pokeCells_other]
  intro c hc; have := mem_cellsAt bs pa hc; omega

/-- A stored byte reads back. -/
theorem State.store_byte (s : State) (pa : Nat) (bs : List Byte) (k : Nat) (hk : k < bs.length) :
    (s.store (cellsAt pa bs)).byte (pa + k) = bs[k] := by
  unfold State.byte
  rw [State.store_mem]; exact get_pokeCells_cellsAt s.mem pa bs k hk

end Sys2Proof.Machine
end

