-- ==== Sys2Proof/Laws/Ops.lean ====
section
/-! SUPPORT. What the shared operations of the meanings do, once: how an instruction ends, its registers, its accesses. -/

namespace Sys2Proof.Machine

set_option Elab.async false

/-! ## The issuing bank -/

@[simp] theorem State.ib_setBank (s : State) (b : Nat) (x : Bank) : (s.setBank b x).ib = s.ib := rfl
@[simp] theorem State.ib_setCore (s : State) (n : Nat) (x : Core) : (s.setCore n x).ib = s.ib := rfl
@[simp] theorem State.ib_setPart (s : State) (p : Nat) (x : Partition) : (s.setPart p x).ib = s.ib := rfl
@[simp] theorem State.ib_setReg (s : State) (d : BitVec 6) (v : BitVec 64) : (s.setReg d v).ib = s.ib := rfl
@[simp] theorem State.cur_setCur (s : State) (x : Bank) : (s.setCur x).cur = x := by
  simp only [State.cur, State.setCur, State.ib_setBank, State.bank_setBank_same]

/-- A register of a bank reads as what was written; s0 reads as 0 (R114). -/
theorem Bank.reg_setReg (b : Bank) (d r : BitVec 6) (v : BitVec 64) :
    (b.setReg d v).reg r = if r = 0 then 0 else if r = d then v else b.reg r := by
  unfold Bank.setReg Bank.reg
  by_cases hr : r = 0
  · simp [hr]
  · by_cases hd : d = 0
    · subst hd; rw [if_pos rfl, if_neg hr, if_neg hr, if_neg hr]
    · simp only [hr, hd, if_false]
      by_cases e : r = d
      · subst e; simp
      · rw [if_neg e]
        exact SMap.get_set_other _ _ _ (fun h => e (BitVec.eq_of_toNat_eq h))

theorem State.reg_setReg (s : State) (d r : BitVec 6) (v : BitVec 64) :
    (s.setReg d v).reg r = if r = 0 then 0 else if r = d then v else s.reg r := by
  simp only [State.reg, State.setReg, State.cur_setCur, Bank.reg_setReg]

/-! ## How an instruction ends -/

theorem State.finish_ok (s x : State) (i : Instr) : s.finish i (.ok x) = .next (s.passed x) := rfl
theorem State.finish_jump (s x : State) (i : Instr) (t : BitVec 64) : s.finish i (.jump x t) = .next (s.jumped x t) := rfl
theorem State.finish_keep (s x : State) (i : Instr) : s.finish i (.keep x) = .next x := rfl
theorem State.finish_wait (s x : State) (i : Instr) : s.finish i (.wait x) = .next (s.stalled x i) := rfl
theorem State.finish_hold (s x : State) (i : Instr) (why : WaitFor) : s.finish i (.hold x why) = .next (s.stalled x i why) := rfl
theorem State.finish_trap (s x : State) (i : Instr) (t : Trap) : s.finish i (.trap x t) = .next (s.raises x t) := rfl

/-- An instruction of a bank always leaves a next state. -/
theorem State.finish_next (s : State) (i : Instr) (r : Res) : ∃ t, s.finish i r = .next t := by
  cases r <;> exact ⟨_, rfl⟩

theorem State.withRegs_free {s : State} {rs : List (BitVec 6)} (h : s.free rs = true) (k : Res) : s.withRegs rs k = k := by
  unfold State.withRegs; rw [if_neg]; simpa [State.free] using h

/-- The end test touches only the pc, the loop counters and the loop state. -/
theorem Bank.endTest_eq (b : Bank) (n : Nat) (x : BitVec 64) :
    (b.endTest n x).1 = { b with pc := (b.endTest n x).1.pc, lc := (b.endTest n x).1.lc, loops := (b.endTest n x).1.loops } := by
  unfold Bank.endTest; dsimp only; split
  · split <;> rfl
  · rfl

theorem Bank.loopEnd_eq (b : Bank) (x : BitVec 64) :
    b.loopEnd x = { b with pc := (b.loopEnd x).pc, lc := (b.loopEnd x).lc, loops := (b.loopEnd x).loops } := by
  have h1 := Bank.endTest_eq b 1 x
  unfold Bank.loopEnd; split
  · rename_i y hy; rw [hy] at h1; exact h1
  · rename_i y hy; rw [hy] at h1; simp only at h1
    rw [Bank.endTest_eq y 0 x, h1]

/-- Passing an issue unit touches only where the bank goes on. -/
theorem Bank.advance_eq (b : Bank) :
    b.advance = { b with pc := b.advance.pc, lc := b.advance.lc, loops := b.advance.loops, waits := none, watch := none,
                         page := b.donePage } := by
  unfold Bank.advance; dsimp only; split
  · rfl
  · exact Bank.loopEnd_eq _ _

theorem Bank.endTest_scalars (b : Bank) (m : SMap (BitVec 64)) (n : Nat) (x : BitVec 64) :
    ({ b with s := m } : Bank).endTest n x = ({ (b.endTest n x).1 with s := m }, (b.endTest n x).2) := by
  unfold Bank.endTest; dsimp only; split
  · split <;> rfl
  · rfl

theorem Bank.loopEnd_scalars (b : Bank) (m : SMap (BitVec 64)) (x : BitVec 64) :
    ({ b with s := m } : Bank).loopEnd x = { b.loopEnd x with s := m } := by
  unfold Bank.loopEnd; rw [Bank.endTest_scalars]
  cases h : b.endTest 1 x with
  | mk y t => cases t
              · simp only [Bank.endTest_scalars]
              · rfl

/-- Where the bank goes on does not depend on its scalar registers. -/
theorem Bank.advance_scalars (b : Bank) (m : SMap (BitVec 64)) :
    ({ b with s := m } : Bank).advance = { b.advance with s := m } := by
  by_cases h : b.memberNo % b.width ≠ 0
  · have h1 : b.advance = { b with pc := b.pc + b.unitBytes, waits := none, watch := none, page := b.donePage } := if_pos h
    have h2 : ({ b with s := m } : Bank).advance = { b with s := m, pc := b.pc + b.unitBytes, waits := none, watch := none, page := b.donePage } := if_pos h
    rw [h1, h2]
  · have h1 : b.advance = ({ b with pc := b.pc + b.unitBytes, waits := none, watch := none, page := b.donePage } : Bank).loopEnd b.pc := if_neg h
    have h2 : ({ b with s := m } : Bank).advance
        = ({ b with s := m, pc := b.pc + b.unitBytes, waits := none, watch := none, page := b.donePage } : Bank).loopEnd b.pc := if_neg h
    rw [h1, h2, ← Bank.loopEnd_scalars]

/-- A write of a scalar register by an instruction that passes its issue unit. -/
theorem wrote_passed (s : State) (d : BitVec 6) (v : BitVec 64) : Wrote s (s.passed (s.setReg d v)) d v := by
  have hb : (s.setReg d v).bank s.ib = s.cur.setReg d v := State.bank_setBank_same _ _ _
  have hs : ∃ m, s.cur.setReg d v = { s.cur with s := m } := by
    unfold Bank.setReg; split
    · exact ⟨s.cur.s, rfl⟩
    · exact ⟨_, rfl⟩
  obtain ⟨m, hm⟩ := hs
  have ht : (s.passed (s.setReg d v)).bank s.ib = { s.cur.advance with s := m, progress := s.now } := by
    unfold State.passed; rw [State.bank_setBank_same, hb, hm, Bank.advance_scalars]; rfl
  have hr : ∀ r, (s.passed (s.setReg d v)).reg r = (s.cur.setReg d v).reg r := by
    intro r
    have : (s.passed (s.setReg d v)).reg r = ((s.passed (s.setReg d v)).bank s.ib).reg r := rfl
    rw [this, ht, hm]; rfl
  refine ⟨⟨rfl, ?_, fun _ => rfl, fun _ => rfl⟩, ?_, ?_, ?_, ?_, ?_, ?_⟩
  · intro k hk
    unfold State.passed State.setReg State.setCur
    rw [State.bank_setBank_other _ _ hk, State.bank_setBank_other _ _ hk]
  · unfold Bank.SameButScalars; rw [ht]; conv => lhs; rw [Bank.advance_eq]
  · rw [hr, Bank.reg_setReg]; by_cases h : d = 0
    · rw [if_pos h, if_pos h]
    · rw [if_neg h, if_neg h, if_pos rfl]
  · intro r h; rw [hr, Bank.reg_setReg, if_neg h]
    by_cases h0 : r = 0
    · rw [if_pos h0]; subst h0; unfold State.reg Bank.reg; rw [if_pos rfl]
    · rw [if_neg h0]; rfl
  all_goals rw [ht]

/-- Every integer instruction writes one register and changes nothing else. -/
theorem State.compute_answers {s : State} {i : Instr} {rs : List (BitVec 6)} {d : BitVec 6} (v : BitVec 64)
    (h : s.free (d :: rs) = true) : ∃ t, s.compute i rs d v = .next t ∧ Wrote s t d v := by
  unfold State.compute
  rw [State.withRegs_free h]
  exact ⟨_, rfl, wrote_passed s d v⟩

/-! ## Accesses (R237) -/

theorem State.withPlace_ok {s : State} {h : BitVec 4} {o : BitVec 64} {n : Nat} {w : Bool} {a : Place} (k : Place → Res)
    (ha : s.access h o n w = .ok a) (hp : s.addPending a n = false) : s.withPlace h o n w k = k a := by
  unfold State.withPlace; rw [ha]; simp [hp]

theorem State.withAccess_ok {s : State} {h : BitVec 4} {o : BitVec 64} {n : Nat} {w : Bool} {a : Place} (k : Place → Res)
    (ha : s.access h o n w = .ok a) (hp : s.addPending a n = false) (hi : s.passes a = true) : s.withAccess h o n w k = k a := by
  unfold State.withAccess; rw [State.withPlace_ok _ ha hp, if_neg]
  unfold State.passes at hi; intro hc; revert hi hc
  cases a.spad <;> cases s.ingressWaits s.partNo a.pa <;> simp

/-- Charging changes only the partition's buckets, and the time it waits at them. -/
theorem State.charge_eq (s : State) (p pa n : Nat) :
    s.charge p pa n = { s with parts := (s.charge p pa n).parts, now := (s.charge p pa n).now } := by
  unfold State.charge; dsimp only; split <;> rfl
theorem State.requestLines_eq (s : State) (p : Nat) (ls : List Nat) :
    s.requestLines p ls = { s with parts := (s.requestLines p ls).parts, now := (s.requestLines p ls).now } := by
  induction ls generalizing s with
  | nil => rfl
  | cons l ls ih =>
    unfold State.requestLines
    rw [ih]
    split
    · rw [State.charge_eq s]
    · rfl
theorem State.request_eq (s : State) (p pa n : Nat) :
    s.request p pa n = { s with parts := (s.request p pa n).parts, now := (s.request p pa n).now } := by
  unfold State.request; split
  · rfl
  · split
    · exact State.requestLines_eq _ _ _
    · exact State.requestLines_eq _ _ _
    · exact State.charge_eq _ _ _ _
theorem State.chargeAt_eq (s : State) (a : Place) (n : Nat) :
    s.chargeAt a n = { s with parts := (s.chargeAt a n).parts, now := (s.chargeAt a n).now } := by
  unfold State.chargeAt; split
  · rfl
  · exact State.request_eq _ _ _ _

/-- What is charged does not change what the object checks find. -/
theorem State.objectFault_chargeAt (s : State) (a : Place) (n : Nat) (core : Option Nat) (pa m : Nat) (w : Bool) :
    (s.chargeAt a n).objectFault core pa m w = s.objectFault core pa m w := by
  rw [State.chargeAt_eq]; rfl
theorem State.coreNo_chargeAt (s : State) (a : Place) (n : Nat) : (s.chargeAt a n).coreNo = s.coreNo := by
  rw [State.chargeAt_eq]; rfl

/-- A read that meets nothing goes on with its bytes. -/
theorem State.withAccess_loads {s x : State} {h : BitVec 4} {o : BitVec 64} {n : Nat} {a : Place} {bs : List Byte}
    (k : Place → State → List Byte → Res) (hl : s.Loads h o n a x bs) :
    s.withAccess h o n false (fun a => s.readAt a n (k a)) = k a x bs := by
  obtain ⟨ha, hp, hi, hr⟩ := hl
  rw [State.withAccess_ok _ ha hp hi]
  unfold State.readAt State.readHome
  rcases hr with ⟨hs, c, hc, rfl⟩ | ⟨hs, ho, hf, rfl⟩
  · simp [hs, State.chargeAt, hc]
  · simp [hs, State.objectFault_chargeAt, State.coreNo_chargeAt, ho, hf]

/-- A write that meets nothing goes on, once its request is charged. -/
theorem State.withAccess_stores {s : State} {h : BitVec 4} {o : BitVec 64} {n : Nat} {a : Place}
    (k : Place → State → Res) (hl : s.Stores h o n a) :
    s.withAccess h o n true (fun a => s.writeCheck a n (k a)) = k a (s.chargeAt a n) := by
  obtain ⟨ha, hp, hi, hr⟩ := hl
  rw [State.withAccess_ok _ ha hp hi]
  unfold State.writeCheck State.writeHome
  cases hs : a.spad
  · obtain ⟨ho, hf⟩ := hr hs; simp [State.objectFault_chargeAt, State.coreNo_chargeAt, ho, hf]
  · simp

/-- An operation at a Crock that meets nothing goes on, once its request is charged. -/
theorem State.withCrock_ok {s y : State} {h : BitVec 4} {o : BitVec 64} {n : Nat} {w : Bool} {a : Place}
    (k : State → Place → Res) (hc : s.AtCrock h o n w a y) : s.withCrock h o n w k = k y a := by
  obtain ⟨ha, hp, hr⟩ := hc
  unfold State.withCrock
  rw [State.withPlace_ok _ ha hp]
  cases hs : a.spad
  · simp only [hs, if_false, Bool.false_eq_true] at hr ⊢
    obtain ⟨hm, ho, hi, hk, rfl⟩ := hr
    simp [hm, ho, hi, hk]
  · simp only [hs, if_true] at hr ⊢
    rw [hr]

/-- A read at a place that meets nothing goes on with its bytes. -/
theorem State.readHome_ok {y x : State} {a : Place} {n : Nat} {bs : List Byte} (k : State → List Byte → Res) (h : y.Finds a n x bs) :
    y.readHome a n k = k x bs := by
  unfold State.readHome
  rcases h with ⟨hs, c, hc, rfl⟩ | ⟨hs, ho, hf, rfl⟩
  · simp [hs, hc]
  · simp [hs, ho, hf]

/-- A write at a place that meets nothing goes on. -/
theorem State.writeHome_ok {y : State} {a : Place} {n : Nat} (k : State → Res) (h : y.Takes a n) : y.writeHome a n k = k y := by
  unfold State.writeHome
  cases hs : a.spad
  · obtain ⟨ho, hf⟩ := h hs; simp [ho, hf]
  · simp

theorem State.afterAdds_ok {s : State} (k : Res) (h : s.wayClear = true) : s.afterAdds k = k := by
  unfold State.afterAdds; rw [if_pos h]
theorem State.afterStores_ok {s : State} (k : Res) (h : s.storesDone = true) : s.afterStores k = k := by
  unfold State.afterStores; rw [if_pos h]

theorem State.synchronise_ok {s x : State} {a : Place} {c : BitVec 3} (k : State → Res) (h : s.Synchronises a c x) :
    s.synchronise a c k = k x := by
  unfold State.Synchronises at h; unfold State.synchronise
  split at h
  · rename_i e; rw [if_pos e, h]
  · rename_i e; rw [if_neg e, h]

end Sys2Proof.Machine
end

