-- ==== Sys2Proof/Laws/Nodes.lean ====
section
/-! SUPPORT. Memory operations and the building of objects leave the node table alone; an allocation that finds room draws free choices
and changes nothing else. -/

namespace Sys2Proof.Machine

/-! ## The node table (R293) -/

theorem foldl_nodes {α : Type} (f : State → α → State) (hf : ∀ s a, (f s a).nodes = s.nodes) (l : List α) :
    ∀ s, (l.foldl f s).nodes = s.nodes := by
  induction l with
  | nil => intro s; rfl
  | cons a l ih => intro s; rw [List.foldl_cons, ih, hf]

theorem foldl_fst_nodes {α β : Type} (f : State × β → α → State × β) (hf : ∀ r a, (f r a).1.nodes = r.1.nodes) (l : List α) :
    ∀ r, (l.foldl f r).1.nodes = r.1.nodes := by
  induction l with
  | nil => intro r; rfl
  | cons a l ih => intro r; rw [List.foldl_cons, ih, hf]

@[simp] theorem State.store_nodes (s : State) (cells : List (Nat × Byte)) : (s.store cells).nodes = s.nodes := by rw [State.store_eq]

@[simp] theorem State.wakeRegions_nodes (s : State) (rs : List Nat) : (s.wakeRegions rs).nodes = s.nodes := by rw [State.wakeRegions_eq]

@[simp] theorem State.sealLines_nodes (s : State) (raw ls : List Nat) : (s.sealLines raw ls).nodes = s.nodes := by rw [State.sealLines_eq]

@[simp] theorem State.charge_nodes (s : State) (p pa n : Nat) : (s.charge p pa n).nodes = s.nodes := by rw [State.charge_eq]

@[simp] theorem State.request_nodes (s : State) (p pa n : Nat) : (s.request p pa n).nodes = s.nodes := by rw [State.request_eq]

@[simp] theorem State.clearPoison_nodes (s : State) (ls : List Nat) : (s.clearPoison ls).nodes = s.nodes := by
  induction ls generalizing s with
  | nil => rfl
  | cons l ls ih => unfold State.clearPoison; rw [ih]; rfl

@[simp] theorem State.poisonBlock_nodes (s : State) (ls : List Nat) : (s.poisonBlock ls).nodes = s.nodes := by
  induction ls generalizing s with
  | nil => rfl
  | cons l ls ih => unfold State.poisonBlock; split <;> simp [ih]

@[simp] theorem State.ras_nodes (s : State) (addr source kind : Nat) (part island : Option Nat) :
    (s.ras addr source kind part island).nodes = s.nodes := by
  unfold State.ras; dsimp only; split <;> rfl

@[simp] theorem State.lineFault_nodes (s : State) (l : Nat) (ks : List Nat) (w : Bool) : (s.lineFault l ks w).1.nodes = s.nodes := by
  unfold State.lineFault
  dsimp only
  repeat' split
  all_goals simp

@[simp] theorem State.writeFault_nodes (s : State) (pa n : Nat) : (s.writeFault pa n).1.nodes = s.nodes :=
  foldl_fst_nodes _ (fun r l => by split <;> simp) _ _

@[simp] theorem State.storeByLine_nodes (s : State) (pa : Nat) (bs : List Byte) : (s.storeByLine pa bs).1.nodes = s.nodes :=
  foldl_fst_nodes _ (fun r l => by
    have h := State.writeFault_nodes r.1 (partIn l pa bs.length).1 ((partIn l pa bs.length).2 - (partIn l pa bs.length).1)
    dsimp only
    split <;> rename_i x hx <;> rw [hx] at h <;> simpa using h) _ _

@[simp] theorem State.agentSync_nodes (s : State) (pa : Nat) (scope : BitVec 3) (core : Nat) : (s.agentSync pa scope core).nodes = s.nodes := by
  unfold State.agentSync; split <;> rfl

@[simp] theorem State.performLate_nodes (s : State) (b : Nat) (x : LateStore) : (s.performLate b x).nodes = s.nodes := by
  have h := State.storeByLine_nodes s x.pa x.bytes
  unfold State.performLate
  split <;> rename_i y hy <;> rw [hy] at h
  · exact h
  · dsimp only
    repeat' split
    all_goals simpa using h

/-- Stores that are performed before their lines change hands leave the node table alone. -/
@[simp] theorem State.flushLate_nodes (s : State) (ls : List (Nat × Nat)) : (s.flushLate ls).nodes = s.nodes :=
  foldl_nodes _ (fun s b => by
    unfold State.flushBank
    exact foldl_nodes _ (fun s x => State.performLate_nodes s b x) _ _) _ _

@[simp] theorem State.putHeader_nodes (s : State) (pa part owner size16 scope state kind : Nat) :
    (s.putHeader pa part owner size16 scope state kind).nodes = s.nodes := by
  have h := State.storeByLine_nodes (s.flushLate [(pa / 128, 1)]) pa
    (toBytes 8 (headerWord part owner size16 scope state) ++ toBytes 8 kind)
  unfold State.putHeader
  split <;> rename_i x hx <;> rw [hx] at h <;> simpa using h

@[simp] theorem State.zeroLines_nodes (s : State) (pa n : Nat) : (s.zeroLines pa n).nodes = s.nodes := by
  unfold State.zeroLines
  dsimp only
  rw [State.clearPoison_nodes, State.sealLines_nodes]

@[simp] theorem State.refusedLines_nodes (s : State) (ls : List Nat) : (s.refusedLines ls).1.nodes = s.nodes := by
  induction ls generalizing s with
  | nil => rfl
  | cons l ls ih => rw [show (s.refusedLines (l :: ls)).1 = ((s.lineFault l [] true).1.refusedLines ls).1 from rfl, ih, State.lineFault_nodes]

@[simp] theorem State.zeroAll_nodes (s : State) (f : Nat) (lines : List Nat) : (s.zeroAll f lines).nodes = s.nodes := by
  have h := State.refusedLines_nodes s lines
  unfold State.zeroAll
  generalize s.refusedLines lines = x at h
  obtain ⟨y, bad⟩ := x
  have hw : (if isHbm f then y.wakeRegions [f / 2 ^ 20] else y).nodes = s.nodes := by split <;> simp [← h]
  dsimp only
  split
  · rw [State.zeroLines_nodes, hw]
  · rw [foldl_nodes _ (fun s l => State.zeroLines_nodes s _ _), hw]

@[simp] theorem State.zeroFrame_nodes (s : State) (f : Nat) : (s.zeroFrame f).nodes = s.nodes :=
  (State.zeroAll_nodes _ _ _).trans (State.flushLate_nodes _ _)

@[simp] theorem State.poisonLines_nodes (s : State) (f : Nat) (ls : List Nat) : (s.poisonLines f ls).nodes = s.nodes := by
  induction ls generalizing s with
  | nil => rfl
  | cons l ls ih => exact (ih (s.setLine (f / 128 + l) { (s.lineInfo (f / 128 + l)) with poison := true })).trans rfl

@[simp] theorem State.tagWords_nodes (n : Nat) : ∀ (s : State) (pa : Nat), (s.tagWords pa n).nodes = s.nodes := by
  induction n with
  | zero => intro s pa; rfl
  | succ n ih => intro s pa; rw [State.tagWords, ih]; rfl

@[simp] theorem State.buildObjects_nodes (s : State) (n : Node) (sealed : Bool) (data : List (List (Nat × Byte))) :
    (s.buildObjects n sealed data).nodes = s.nodes := by
  unfold State.buildObjects
  dsimp only
  rw [foldl_nodes _ (fun s f => by rfl), foldl_nodes _ (fun s x => by simp), State.tagWords_nodes, State.store_nodes,
    foldl_nodes _ (fun s f => by simp)]

@[simp] theorem State.registerHolder_nodes (s : State) (add : Bool) (n : Node) : (s.registerHolder add n).nodes = s.nodes := by
  unfold State.registerHolder; dsimp only; repeat' split
  all_goals rfl

theorem State.writeNode_nodes (s : State) (r : Nat) (n : Node) : (s.writeNode r n).nodes = SMap.set none s.nodes r (some n) := by
  have h := State.storeByLine_nodes { s with nodes := SMap.set none s.nodes r (some n) } (r + 16) n.recordBytes
  unfold State.writeNode
  dsimp only
  split <;> rename_i x hx <;> rw [hx] at h <;> exact h

theorem State.setNode_nodes (s : State) (r : Nat) (n : Node) : (s.setNode r n).nodes = SMap.set none s.nodes r (some n) := by
  rw [State.setNode, State.writeNode_nodes, State.request_nodes]

@[simp] theorem State.setNode_node (s : State) (r : Nat) (n : Node) : (s.setNode r n).node r = some n := by
  rw [State.node, State.setNode_nodes, SMap.get_set_same]

/-- A stub that becomes a replica is a node afterwards (R313). -/
theorem State.replicate_node (s : State) (r : Nat) (n : Node) (m : Nat) (pages : List Nat) (k : RemoteNode) :
    ∃ n', (s.replicate r n m pages k).node r = some n' := by
  unfold State.replicate
  dsimp only
  generalize hn : ({ n with map := m, pages := pages, state := .sealed, tier := 1 } : Node) = n1
  generalize (k.pages.map (fun cs => cs.filter (fun c => decide (128 ≤ c.1 ∧ c.1 < 65536)))) = d
  generalize (m :: pages).foldl (fun (s : State) _ => s.charge n.part peerBase 65536) (s.charge n.part peerBase 128) = x
  have h : ((x.setNode r n1).buildObjects n1 true d).node r = some n1 := by
    rw [State.node, State.buildObjects_nodes]; exact State.setNode_node x r n1
  generalize (x.setNode r n1).buildObjects n1 true d = y at h
  have hp : ∀ (l : List (Nat × Nat)) (f : Nat × Nat → List Nat),
      (l.foldl (fun (s : State) x => s.poisonLines x.2 (f x)) y).node r = some n1 := by
    intro l f
    rw [State.node, foldl_nodes _ (fun s x => State.poisonLines_nodes s _ _)]; exact h
  rw [State.node, State.registerHolder_nodes]
  unfold State.leaseNode
  rw [hp]
  dsimp only
  rw [State.setNode_nodes, SMap.get_set_same]
  exact ⟨_, rfl⟩

/-! ## Allocation (R311) -/

@[simp] theorem State.liveNode_freeNo (s : State) (m : Nat) (x : NodeReg) : ({ s with freeNo := m } : State).liveNode x = s.liveNode x := rfl

theorem State.length_takeFrames (n : Nat) : ∀ (s : State) (fs : List Nat), (s.takeFrames n fs).2.length = n := by
  induction n with
  | zero => intro s fs; rfl
  | succ n ih => intro s fs; simp [State.takeFrames, ih]

/-- Taking frames draws free choices and changes nothing else. -/
theorem State.takeFrames_state (n : Nat) : ∀ (s : State) (fs : List Nat), ∃ m, (s.takeFrames n fs).1 = { s with freeNo := m } := by
  induction n with
  | zero => intro s fs; exact ⟨s.freeNo, rfl⟩
  | succ n ih =>
    intro s fs
    obtain ⟨m, h⟩ := ih { s with freeNo := s.freeNo + 1 } (fs.erase (fs.getD (Config.poolChoice s.freeNo % fs.length) 0))
    exact ⟨m, by simp only [State.takeFrames, State.choose, h]⟩

/-- The frames taken are of those offered, when there are enough. -/
theorem State.mem_takeFrames (n : Nat) : ∀ (s : State) (fs : List Nat), n ≤ fs.length → ∀ f ∈ (s.takeFrames n fs).2, f ∈ fs := by
  induction n with
  | zero => intro s fs _ f hf; simp [State.takeFrames] at hf
  | succ n ih =>
    intro s fs hl f hf
    have hk : Config.poolChoice s.freeNo % fs.length < fs.length := Nat.mod_lt _ (by omega)
    have hm : fs.getD (Config.poolChoice s.freeNo % fs.length) 0 ∈ fs := by
      rw [List.getD_eq_getElem?_getD, List.getElem?_eq_getElem hk]; exact List.getElem_mem hk
    simp only [State.takeFrames, State.choose, List.mem_cons] at hf
    rcases hf with rfl | hf
    · exact hm
    · exact List.mem_of_mem_erase (ih _ _ (by rw [List.length_erase_of_mem hm]; omega) f hf)

/-- A list without repeats loses at most one entry when one value is taken out. -/
theorem length_without {l : List Nat} (h : l.Nodup) (x : Nat) : l.length ≤ (l.filter (fun f => f != x)).length + 1 := by
  induction l with
  | nil => simp
  | cons a l ih =>
    rw [List.nodup_cons] at h
    by_cases hx : a = x
    · subst hx
      have : l.filter (fun f => f != a) = l := by
        apply List.filter_eq_self.mpr
        intro b hb
        simp only [bne_iff_ne, ne_eq]
        intro he
        exact h.1 (he ▸ hb)
      simp [this]
    · have := ih h.2
      simp [hx]
      omega

/-- A record and n frames of the pool are found, whichever the device picks, when it has n + 1 free frames; only free choices are drawn. -/
theorem State.allocate_got (s : State) (p tier n fuel : Nat) (hn : ((s.poolFrames p tier).filter (fun f => !s.frameUsed f)).Nodup)
    (hl : n + 1 ≤ ((s.poolFrames p tier).filter (fun f => !s.frameUsed f)).length) :
    ∃ m r l, s.allocate p tier n (fuel + 1) = ({ s with freeNo := m }, .got r l) ∧ l.length = n ∧ ∀ f ∈ l, f ∈ s.poolFrames p tier := by
  have hne : ((s.poolFrames p tier).filter (fun f => !s.frameUsed f || (s.recordFrame p f && !(s.freeSlots f).isEmpty))).isEmpty = false := by
    cases hz : (s.poolFrames p tier).filter (fun f => !s.frameUsed f) with
    | nil => rw [hz] at hl; simp at hl
    | cons a as =>
      have ha : a ∈ (s.poolFrames p tier).filter (fun f => !s.frameUsed f) := by rw [hz]; simp
      rw [List.mem_filter] at ha
      rw [List.isEmpty_eq_false_iff_exists_mem]
      exact ⟨a, by rw [List.mem_filter]; exact ⟨ha.1, by simp [ha.2]⟩⟩
  obtain ⟨m, r, hr⟩ : ∃ m r, s.recordPlace p tier = ({ s with freeNo := m }, some r) :=
    ⟨_, _, by simp only [State.recordPlace, hne, State.choose]; rfl⟩
  let s' : State := { s with freeNo := m }
  let fs := (s'.poolFrames p tier).filter (fun f => !s'.frameUsed f && f != r / 65536 * 65536)
  have hcount : ¬ (fs.length < n) := by
    have h1 : fs = ((s.poolFrames p tier).filter (fun f => !s.frameUsed f)).filter (fun f => f != r / 65536 * 65536) := by
      rw [List.filter_filter]
      exact List.filter_congr (fun _ _ => Bool.and_comm _ _)
    have := length_without hn (r / 65536 * 65536)
    rw [h1]
    omega
  obtain ⟨m', hm⟩ := State.takeFrames_state n s' fs
  have hf : s'.framesFor p tier n (r / 65536 * 65536) = ({ s' with freeNo := m' }, some (s'.takeFrames n fs).2) := by
    simp only [State.framesFor]
    rw [if_neg hcount, hm]
  exact ⟨m', r, (s'.takeFrames n fs).2, by simp only [State.allocate, State.placeNode, hr]; rw [hf], State.length_takeFrames _ _ _,
    fun f h => (List.mem_filter.mp (State.mem_takeFrames n s' fs (Nat.le_of_not_lt hcount) f h)).1⟩

end Sys2Proof.Machine
end

