-- ==== Sys2Proof/Laws/PerInstr.lean ====
section
/-! SUPPORT. Family Shape: an encoded word carries its row's major opcode in bits 31-24 (R95, R98), and a patch word its class in
bits 31-30 (R95, R102). -/

namespace Sys2Proof.Laws

set_option Elab.async false

theorem Shape.extract_high {w v : Nat} (x : BitVec w) (y : BitVec v) (lo k : Nat) (h : v ≤ lo) :
    BitVec.extractLsb' lo k (x ++ y) = BitVec.extractLsb' (lo - v) k x := by
  apply BitVec.eq_of_getLsbD_eq
  intro i hi
  simp only [BitVec.getLsbD_extractLsb', BitVec.getLsbD_append]
  rw [if_neg (by omega)]
  congr 2
  omega

theorem Shape.extract_low {w v : Nat} (x : BitVec w) (y : BitVec v) (lo k : Nat) (h : lo + k ≤ v) :
    BitVec.extractLsb' lo k (x ++ y) = BitVec.extractLsb' lo k y := by
  apply BitVec.eq_of_getLsbD_eq
  intro i hi
  simp only [BitVec.getLsbD_extractLsb', BitVec.getLsbD_append]
  rw [if_pos (by omega)]

theorem Shape.extract_all {w : Nat} (x : BitVec w) : BitVec.extractLsb' 0 w x = x := by
  apply BitVec.eq_of_getLsbD_eq
  intro i hi
  simp [hi]

/-- The major opcode of an instruction's row (R98); a patch word and a step that is no word have none. -/
def Shape.opcode : Instr → Option (BitVec 8)
  | .add _ _ _ => some 0x00
  | .sub _ _ _ => some 0x01
  | .mul _ _ _ => some 0x02
  | .mulh _ _ _ _ => some 0x03
  | .div _ _ _ _ => some 0x04
  | .rem _ _ _ _ => some 0x05
  | .and _ _ _ => some 0x06
  | .or _ _ _ => some 0x07
  | .xor _ _ _ => some 0x08
  | .andn _ _ _ => some 0x09
  | .shl _ _ _ => some 0x0A
  | .shr _ _ _ => some 0x0B
  | .sar _ _ _ => some 0x0C
  | .ror _ _ _ => some 0x0D
  | .min _ _ _ _ => some 0x0E
  | .max _ _ _ _ => some 0x0F
  | .cmp _ _ _ _ => some 0x10
  | .sel _ _ _ _ => some 0x11
  | .clz _ _ => some 0x12
  | .ctz _ _ => some 0x13
  | .popc _ _ => some 0x14
  | .shadd _ _ _ _ => some 0x15
  | .bfx _ _ _ _ => some 0x16
  | .bfi _ _ _ _ => some 0x17
  | .addi _ _ _ => some 0x20
  | .andi _ _ _ => some 0x21
  | .ori _ _ _ => some 0x22
  | .xori _ _ _ => some 0x23
  | .shli _ _ _ => some 0x24
  | .shri _ _ _ => some 0x25
  | .sari _ _ _ => some 0x26
  | .muli _ _ _ => some 0x27
  | .cmpeqi _ _ _ => some 0x28
  | .cmplti _ _ _ => some 0x29
  | .cmpltui _ _ _ => some 0x2A
  | .li _ _ => some 0x30
  | .lis _ _ => some 0x31
  | .addpc _ _ => some 0x32
  | .beq _ _ _ => some 0x40
  | .bne _ _ _ => some 0x41
  | .blt _ _ _ => some 0x42
  | .bge _ _ _ => some 0x43
  | .bltu _ _ _ => some 0x44
  | .bgeu _ _ _ => some 0x45
  | .jmp _ => some 0x46
  | .jal _ => some 0x47
  | .jr _ _ _ => some 0x48
  | .loop _ _ _ => some 0x49
  | .loopm _ _ _ _ => some 0x4A
  | .ldb _ _ _ => some 0x50
  | .ldbu _ _ _ => some 0x51
  | .ldh _ _ _ => some 0x52
  | .ldhu _ _ _ => some 0x53
  | .ldw _ _ _ => some 0x54
  | .ldwu _ _ _ => some 0x55
  | .ldd _ _ _ => some 0x56
  | .stb _ _ _ => some 0x57
  | .sth _ _ _ => some 0x58
  | .stw _ _ _ => some 0x59
  | .std _ _ _ => some 0x5A
  | .ldx _ _ _ _ _ => some 0x5B
  | .stx _ _ _ _ => some 0x5C
  | .ldref _ _ _ => some 0x5D
  | .stref _ _ _ => some 0x5E
  | .ldacq _ _ _ _ _ _ => some 0x5F
  | .strel _ _ _ _ _ => some 0x60
  | .xlate _ _ _ => some 0x61
  | .hinfo _ _ _ => some 0x62
  | .hdrop _ => some 0x63
  | .stlk _ _ => some 0x64
  | .stins _ _ => some 0x65
  | .stinv _ => some 0x66
  | .pkrd _ _ _ _ => some 0x68
  | .pkwr _ _ _ _ => some 0x69
  | .pkwt => some 0x6A
  | .objinit _ _ _ => some 0x6C
  | .pub _ _ _ _ => some 0x6D
  | .aadd _ _ _ _ _ _ => some 0x80
  | .aand _ _ _ _ _ _ => some 0x81
  | .aor _ _ _ _ _ _ => some 0x82
  | .axor _ _ _ _ _ _ => some 0x83
  | .amin _ _ _ _ _ _ => some 0x84
  | .amax _ _ _ _ _ _ => some 0x85
  | .aswp _ _ _ _ _ _ => some 0x86
  | .acas _ _ _ _ _ _ => some 0x87
  | .fenceFull _ => some 0x88
  | .fenceSs _ => some 0x88
  | .fenceLl _ => some 0x88
  | .fenceEngine _ => some 0x88
  | .monitor _ _ => some 0x89
  | .mwait _ _ => some 0x8A
  | .rwfree _ _ _ => some 0x8C
  | .rpost _ _ _ => some 0x8D
  | .rwfill _ _ _ => some 0x8E
  | .rfree _ _ _ => some 0x8F
  | .fladd _ _ _ _ _ => some 0x90
  | .flset _ _ _ _ _ => some 0x91
  | .flsetCoreFlag _ _ => some 0x91
  | .flwait _ _ _ _ _ => some 0x92
  | .flwaitCoreFlag _ _ => some 0x92
  | .drain _ _ => some 0x93
  | .qpush _ _ => some 0x94
  | .qpop _ _ => some 0x95
  | .qpoll _ _ => some 0x96
  | .gang _ => some 0x98
  | .fork _ => some 0x99
  | .join _ => some 0x9A
  | .spawn _ _ => some 0xA0
  | .jdec _ _ => some 0xA1
  | .commit => some 0xA2
  | .unitDone => some 0xA3
  | .yield => some 0xA4
  | .cancel _ _ => some 0xA5
  | .ccnt _ _ _ _ => some 0xA6
  | .tmpl _ _ _ => some 0xA8
  | .wir _ _ _ _ _ => some 0xA9
  | .wmov _ _ => some 0xAA
  | .wget _ _ => some 0xAB
  | .vlease _ _ => some 0xAC
  | .vfree => some 0xAD
  | .axbegin _ => some 0xB0
  | .axend => some 0xB1
  | .axinv _ => some 0xB2
  | .axstat _ _ => some 0xB3
  | .pfx _ _ _ _ => some 0xB4
  | .seal _ _ => some 0xB5
  | .nlease _ _ => some 0xB6
  | .nrefInc _ => some 0xB7
  | .nrefDec _ => some 0xB7
  | .nxl _ _ _ _ => some 0xB8
  | .nfetch _ _ => some 0xB9
  | .nopen _ _ => some 0xBA
  | .ndrop _ => some 0xBB
  | .crr _ _ => some 0xBC
  | .crw _ _ => some 0xBD
  | .trap _ => some 0xBE
  | .trapHarvestService => some 0xBE
  | .trapPageAnswerService => some 0xBE
  | .eret => some 0xBF
  | .patchWord _ _ _ _ _ => none
  | .tld _ => none
  | .vld _ => none
  | .vldg _ => none
  | .spcpy _ => none
  | .cpy _ => none
  | .cpyg _ => none
  | .cpyr _ => none
  | .cpyn _ => none
  | .tabld _ => none
  | .gload _ => none
  | .vaddf _ => none
  | .vsubf _ => none
  | .vmulf _ => none
  | .vfmaf _ => none
  | .vminf _ => none
  | .vmaxf _ => none
  | .vsgnf _ => none
  | .vexp2 _ => none
  | .vlog2 _ => none
  | .vrcp _ => none
  | .vrsqrt _ => none
  | .vcvt _ => none
  | .vcmpf _ => none
  | .vsel _ => none
  | .vaddi _ => none
  | .vsubi _ => none
  | .vmuli _ => none
  | .vand _ => none
  | .vor _ => none
  | .vxor _ => none
  | .vshl _ => none
  | .vshr _ => none
  | .vsar _ => none
  | .vmini _ => none
  | .vmaxi _ => none
  | .vcmpi _ => none
  | .vbcast _ => none
  | .viota _ => none
  | .vperm _ => none
  | .vredsum _ => none
  | .vredmax _ => none
  | .vargmax _ => none
  | .vtopk _ => none
  | .vpopc _ => none
  | .vmovs _ => none
  | .vscan _ => none
  | .plog _ => none
  | .mma _ => none
  | .mmas _ => none
  | .aclr _ => none
  | .ard _ => none
  | .txp _ => none
  | .tabsel _ => none
  | .awr _ => none
  | .gmv _ => none
  | .grvf _ => none
  | .tst _ => none
  | .vst _ => none
  | .vsts _ => none
  | .cpyo _ => none
  | .cpys _ => none
  | .ardst _ => none
  | .cpynw _ => none
  | .wideOperationComplete _ _ => none
  | .vatArbitration _ => none
  | .vatGrant _ => none
  | .vatOccupancyEnd _ => none
  | .leaseTimeout _ => none
  | .vatCommandComplete _ => none
  | .vatPowerDown _ => none
  | .translationWindowEnd _ _ => none
  | .pageWalkComplete _ _ => none
  | .packetHomeWrite _ _ => none
  | .packetReply _ _ => none
  | .fladdPerform _ => none
  | .mwaitWake _ => none
  | .mwaitTimeout _ => none
  | .flwaitWake _ => none
  | .loopmFlagWake _ => none
  | .queueRegisterWake _ => none
  | .ringWaitWake _ => none
  | .joinReform _ _ => none
  | .drainComplete _ _ => none
  | .place _ => none
  | .victimDiscard _ => none
  | .cancelDiscard _ => none
  | .commitBudget _ => none
  | .watchdog _ => none
  | .takePendingTrap _ => none
  | .pageFaultDrain _ => none
  | .bankAResume _ => none
  | .pageRequestTimeout _ _ => none
  | .nfetchComplete _ _ => none
  | .forwardedRead _ => none
  | .remoteProbe _ => none
  | .holderRegistration _ _ _ => none
  | .peerMemoryRequest _ _ _ => none
  | .churnCapture _ => none
  | .patrolScrub _ => none
  | .hostMemoryWrite _ _ => none
  | .jobRingNotify _ => none
  | .claim _ => none
  | .release _ => none
  | .heartbeat _ => none
  | .handover _ _ => none
  | .accept _ => none
  | .ownershipLapse => none
  | .partCreate _ _ => none
  | .partDestroy _ _ => none
  | .moveIsland _ _ => none
  | .moveGroup _ _ => none
  | .partApply _ _ => none
  | .partCmdComplete => none
  | .managementRegisterWrite _ _ _ => none
  | .refusedWritesRead _ => none
  | .pwrDomReq _ _ _ => none
  | .harvest _ => none
  | .revoke _ => none
  | .revokeAll _ => none
  | .spFailedWrite _ _ => none
  | .scratchpadRebuildDone _ _ => none
  | .vatIdleWrite _ _ => none
  | .vfFlr _ => none
  | .pfFlr _ => none
  | .pageAnswerRetry _ _ => none
  | .pageAnswerFail _ _ => none
  | .mctpRead _ => none
  | .mctpWrite _ _ => none
  | .getEndpointId => none
  | .setEndpointId _ => none
  | .getMctpVersionSupport => none
  | .getMessageTypeSupport => none
  | .getVendorDefinedMessageSupport => none
  | .getVersion => none
  | .getCapabilities => none
  | .negotiateAlgorithms _ _ => none
  | .getDigests => none
  | .getCertificate _ => none
  | .challenge _ _ => none
  | .getMeasurements _ => none
  | .powerOn _ => none
  | .thermalThrottle _ _ => none
  | .clockRestore _ _ => none
  | .criticalShutdown _ => none
  | .islandClockGate _ => none
  | .bucketRefill _ _ => none
  | .hostMemoryRead _ _ => none
  | .harvestCommandDone => none

def Shape.Statement (i : Instr) : Prop :=
  ∀ w, encode i = some w →
    match Shape.opcode i with
    | some op => w.extractLsb' 24 8 = op
    | none => w.extractLsb' 30 2 = 3#2

theorem Shape.add : ∀ d a b, Shape.Statement (.add d a b) := by
  intros; intro w e; cases e; simp (disch := omega) only [Shape.extract_high, Shape.opcode]; rfl
theorem Shape.sub : ∀ d a b, Shape.Statement (.sub d a b) := by
  intros; intro w e; cases e; simp (disch := omega) only [Shape.extract_high, Shape.opcode]; rfl
theorem Shape.mul : ∀ d a b, Shape.Statement (.mul d a b) := by
  intros; intro w e; cases e; simp (disch := omega) only [Shape.extract_high, Shape.opcode]; rfl
theorem Shape.mulh : ∀ d a b m, Shape.Statement (.mulh d a b m) := by
  intros; intro w e; cases e; simp (disch := omega) only [Shape.extract_high, Shape.opcode]; rfl
theorem Shape.div : ∀ d a b u, Shape.Statement (.div d a b u) := by
  intros; intro w e; cases e; simp (disch := omega) only [Shape.extract_high, Shape.opcode]; rfl
theorem Shape.rem : ∀ d a b u, Shape.Statement (.rem d a b u) := by
  intros; intro w e; cases e; simp (disch := omega) only [Shape.extract_high, Shape.opcode]; rfl
theorem Shape.and : ∀ d a b, Shape.Statement (.and d a b) := by
  intros; intro w e; cases e; simp (disch := omega) only [Shape.extract_high, Shape.opcode]; rfl
theorem Shape.or : ∀ d a b, Shape.Statement (.or d a b) := by
  intros; intro w e; cases e; simp (disch := omega) only [Shape.extract_high, Shape.opcode]; rfl
theorem Shape.xor : ∀ d a b, Shape.Statement (.xor d a b) := by
  intros; intro w e; cases e; simp (disch := omega) only [Shape.extract_high, Shape.opcode]; rfl
theorem Shape.andn : ∀ d a b, Shape.Statement (.andn d a b) := by
  intros; intro w e; cases e; simp (disch := omega) only [Shape.extract_high, Shape.opcode]; rfl
theorem Shape.shl : ∀ d a b, Shape.Statement (.shl d a b) := by
  intros; intro w e; cases e; simp (disch := omega) only [Shape.extract_high, Shape.opcode]; rfl
theorem Shape.shr : ∀ d a b, Shape.Statement (.shr d a b) := by
  intros; intro w e; cases e; simp (disch := omega) only [Shape.extract_high, Shape.opcode]; rfl
theorem Shape.sar : ∀ d a b, Shape.Statement (.sar d a b) := by
  intros; intro w e; cases e; simp (disch := omega) only [Shape.extract_high, Shape.opcode]; rfl
theorem Shape.ror : ∀ d a b, Shape.Statement (.ror d a b) := by
  intros; intro w e; cases e; simp (disch := omega) only [Shape.extract_high, Shape.opcode]; rfl
theorem Shape.min : ∀ d a b u, Shape.Statement (.min d a b u) := by
  intros; intro w e; cases e; simp (disch := omega) only [Shape.extract_high, Shape.opcode]; rfl
theorem Shape.max : ∀ d a b u, Shape.Statement (.max d a b u) := by
  intros; intro w e; cases e; simp (disch := omega) only [Shape.extract_high, Shape.opcode]; rfl
theorem Shape.cmp : ∀ d a b c, Shape.Statement (.cmp d a b c) := by
  intros; intro w e; cases e; simp (disch := omega) only [Shape.extract_high, Shape.opcode]; rfl
theorem Shape.sel : ∀ d a b c, Shape.Statement (.sel d a b c) := by
  intros; intro w e; cases e; simp (disch := omega) only [Shape.extract_high, Shape.opcode]; rfl
theorem Shape.clz : ∀ d a, Shape.Statement (.clz d a) := by
  intros; intro w e; cases e; simp (disch := omega) only [Shape.extract_high, Shape.opcode]; rfl
theorem Shape.ctz : ∀ d a, Shape.Statement (.ctz d a) := by
  intros; intro w e; cases e; simp (disch := omega) only [Shape.extract_high, Shape.opcode]; rfl
theorem Shape.popc : ∀ d a, Shape.Statement (.popc d a) := by
  intros; intro w e; cases e; simp (disch := omega) only [Shape.extract_high, Shape.opcode]; rfl
theorem Shape.shadd : ∀ d a b k, Shape.Statement (.shadd d a b k) := by
  intros; intro w e; cases e; simp (disch := omega) only [Shape.extract_high, Shape.opcode]; rfl
theorem Shape.bfx : ∀ d a b w, Shape.Statement (.bfx d a b w) := by
  intros; intro w e; cases e; simp (disch := omega) only [Shape.extract_high, Shape.opcode]; rfl
theorem Shape.bfi : ∀ d a b w, Shape.Statement (.bfi d a b w) := by
  intros; intro w e; cases e; simp (disch := omega) only [Shape.extract_high, Shape.opcode]; rfl
theorem Shape.addi : ∀ d a imm, Shape.Statement (.addi d a imm) := by
  intros; intro w e; cases e; simp (disch := omega) only [Shape.extract_high, Shape.opcode]; rfl
theorem Shape.andi : ∀ d a imm, Shape.Statement (.andi d a imm) := by
  intros; intro w e; cases e; simp (disch := omega) only [Shape.extract_high, Shape.opcode]; rfl
theorem Shape.ori : ∀ d a imm, Shape.Statement (.ori d a imm) := by
  intros; intro w e; cases e; simp (disch := omega) only [Shape.extract_high, Shape.opcode]; rfl
theorem Shape.xori : ∀ d a imm, Shape.Statement (.xori d a imm) := by
  intros; intro w e; cases e; simp (disch := omega) only [Shape.extract_high, Shape.opcode]; rfl
theorem Shape.shli : ∀ d a imm, Shape.Statement (.shli d a imm) := by
  intros; intro w e; cases e; simp (disch := omega) only [Shape.extract_high, Shape.opcode]; rfl
theorem Shape.shri : ∀ d a imm, Shape.Statement (.shri d a imm) := by
  intros; intro w e; cases e; simp (disch := omega) only [Shape.extract_high, Shape.opcode]; rfl
theorem Shape.sari : ∀ d a imm, Shape.Statement (.sari d a imm) := by
  intros; intro w e; cases e; simp (disch := omega) only [Shape.extract_high, Shape.opcode]; rfl
theorem Shape.muli : ∀ d a imm, Shape.Statement (.muli d a imm) := by
  intros; intro w e; cases e; simp (disch := omega) only [Shape.extract_high, Shape.opcode]; rfl
theorem Shape.cmpeqi : ∀ d a imm, Shape.Statement (.cmpeqi d a imm) := by
  intros; intro w e; cases e; simp (disch := omega) only [Shape.extract_high, Shape.opcode]; rfl
theorem Shape.cmplti : ∀ d a imm, Shape.Statement (.cmplti d a imm) := by
  intros; intro w e; cases e; simp (disch := omega) only [Shape.extract_high, Shape.opcode]; rfl
theorem Shape.cmpltui : ∀ d a imm, Shape.Statement (.cmpltui d a imm) := by
  intros; intro w e; cases e; simp (disch := omega) only [Shape.extract_high, Shape.opcode]; rfl
theorem Shape.li : ∀ d imm, Shape.Statement (.li d imm) := by
  intros; intro w e; cases e; simp (disch := omega) only [Shape.extract_high, Shape.opcode]; rfl
theorem Shape.lis : ∀ d imm, Shape.Statement (.lis d imm) := by
  intros; intro w e; cases e; simp (disch := omega) only [Shape.extract_high, Shape.opcode]; rfl
theorem Shape.addpc : ∀ d imm, Shape.Statement (.addpc d imm) := by
  intros; intro w e; cases e; simp (disch := omega) only [Shape.extract_high, Shape.opcode]; rfl
theorem Shape.beq : ∀ a b o, Shape.Statement (.beq a b o) := by
  intros; intro w e; cases e; simp (disch := omega) only [Shape.extract_high, Shape.opcode]; rfl
theorem Shape.bne : ∀ a b o, Shape.Statement (.bne a b o) := by
  intros; intro w e; cases e; simp (disch := omega) only [Shape.extract_high, Shape.opcode]; rfl
theorem Shape.blt : ∀ a b o, Shape.Statement (.blt a b o) := by
  intros; intro w e; cases e; simp (disch := omega) only [Shape.extract_high, Shape.opcode]; rfl
theorem Shape.bge : ∀ a b o, Shape.Statement (.bge a b o) := by
  intros; intro w e; cases e; simp (disch := omega) only [Shape.extract_high, Shape.opcode]; rfl
theorem Shape.bltu : ∀ a b o, Shape.Statement (.bltu a b o) := by
  intros; intro w e; cases e; simp (disch := omega) only [Shape.extract_high, Shape.opcode]; rfl
theorem Shape.bgeu : ∀ a b o, Shape.Statement (.bgeu a b o) := by
  intros; intro w e; cases e; simp (disch := omega) only [Shape.extract_high, Shape.opcode]; rfl
theorem Shape.jmp : ∀ o, Shape.Statement (.jmp o) := by
  intros; intro w e; cases e; simp (disch := omega) only [Shape.extract_high, Shape.opcode]; rfl
theorem Shape.jal : ∀ o, Shape.Statement (.jal o) := by
  intros; intro w e; cases e; simp (disch := omega) only [Shape.extract_high, Shape.opcode]; rfl
theorem Shape.jr : ∀ d a imm, Shape.Statement (.jr d a imm) := by
  intros; intro w e; cases e; simp (disch := omega) only [Shape.extract_high, Shape.opcode]; rfl
theorem Shape.loop : ∀ a l e, Shape.Statement (.loop a l e) := by
  intros; intro w e; cases e; simp (disch := omega) only [Shape.extract_high, Shape.opcode]; rfl
theorem Shape.loopm : ∀ h l f e, Shape.Statement (.loopm h l f e) := by
  intros; intro w e; cases e; simp (disch := omega) only [Shape.extract_high, Shape.opcode]; rfl
theorem Shape.ldb : ∀ d h o, Shape.Statement (.ldb d h o) := by
  intros; intro w e; cases e; simp (disch := omega) only [Shape.extract_high, Shape.opcode]; rfl
theorem Shape.ldbu : ∀ d h o, Shape.Statement (.ldbu d h o) := by
  intros; intro w e; cases e; simp (disch := omega) only [Shape.extract_high, Shape.opcode]; rfl
theorem Shape.ldh : ∀ d h o, Shape.Statement (.ldh d h o) := by
  intros; intro w e; cases e; simp (disch := omega) only [Shape.extract_high, Shape.opcode]; rfl
theorem Shape.ldhu : ∀ d h o, Shape.Statement (.ldhu d h o) := by
  intros; intro w e; cases e; simp (disch := omega) only [Shape.extract_high, Shape.opcode]; rfl
theorem Shape.ldw : ∀ d h o, Shape.Statement (.ldw d h o) := by
  intros; intro w e; cases e; simp (disch := omega) only [Shape.extract_high, Shape.opcode]; rfl
theorem Shape.ldwu : ∀ d h o, Shape.Statement (.ldwu d h o) := by
  intros; intro w e; cases e; simp (disch := omega) only [Shape.extract_high, Shape.opcode]; rfl
theorem Shape.ldd : ∀ d h o, Shape.Statement (.ldd d h o) := by
  intros; intro w e; cases e; simp (disch := omega) only [Shape.extract_high, Shape.opcode]; rfl
theorem Shape.stb : ∀ r h o, Shape.Statement (.stb r h o) := by
  intros; intro w e; cases e; simp (disch := omega) only [Shape.extract_high, Shape.opcode]; rfl
theorem Shape.sth : ∀ r h o, Shape.Statement (.sth r h o) := by
  intros; intro w e; cases e; simp (disch := omega) only [Shape.extract_high, Shape.opcode]; rfl
theorem Shape.stw : ∀ r h o, Shape.Statement (.stw r h o) := by
  intros; intro w e; cases e; simp (disch := omega) only [Shape.extract_high, Shape.opcode]; rfl
theorem Shape.std : ∀ r h o, Shape.Statement (.std r h o) := by
  intros; intro w e; cases e; simp (disch := omega) only [Shape.extract_high, Shape.opcode]; rfl
theorem Shape.ldx : ∀ d h x g z, Shape.Statement (.ldx d h x g z) := by
  intros; intro w e; cases e; simp (disch := omega) only [Shape.extract_high, Shape.opcode]; rfl
theorem Shape.stx : ∀ r h x z, Shape.Statement (.stx r h x z) := by
  intros; intro w e; cases e; simp (disch := omega) only [Shape.extract_high, Shape.opcode]; rfl
theorem Shape.ldref : ∀ d h o, Shape.Statement (.ldref d h o) := by
  intros; intro w e; cases e; simp (disch := omega) only [Shape.extract_high, Shape.opcode]; rfl
theorem Shape.stref : ∀ r h o, Shape.Statement (.stref r h o) := by
  intros; intro w e; cases e; simp (disch := omega) only [Shape.extract_high, Shape.opcode]; rfl
theorem Shape.ldacq : ∀ d h x g c z, Shape.Statement (.ldacq d h x g c z) := by
  intros; intro w e; cases e; simp (disch := omega) only [Shape.extract_high, Shape.opcode]; rfl
theorem Shape.strel : ∀ r h x c z, Shape.Statement (.strel r h x c z) := by
  intros; intro w e; cases e; simp (disch := omega) only [Shape.extract_high, Shape.opcode]; rfl
theorem Shape.xlate : ∀ h a w, Shape.Statement (.xlate h a w) := by
  intros; intro w e; cases e; simp (disch := omega) only [Shape.extract_high, Shape.opcode]; rfl
theorem Shape.hinfo : ∀ d h k, Shape.Statement (.hinfo d h k) := by
  intros; intro w e; cases e; simp (disch := omega) only [Shape.extract_high, Shape.opcode]; rfl
theorem Shape.hdrop : ∀ h, Shape.Statement (.hdrop h) := by
  intros; intro w e; cases e; simp (disch := omega) only [Shape.extract_high, Shape.opcode]; rfl
theorem Shape.stlk : ∀ d a, Shape.Statement (.stlk d a) := by
  intros; intro w e; cases e; simp (disch := omega) only [Shape.extract_high, Shape.opcode]; rfl
theorem Shape.stins : ∀ a b, Shape.Statement (.stins a b) := by
  intros; intro w e; cases e; simp (disch := omega) only [Shape.extract_high, Shape.opcode]; rfl
theorem Shape.stinv : ∀ a, Shape.Statement (.stinv a) := by
  intros; intro w e; cases e; simp (disch := omega) only [Shape.extract_high, Shape.opcode]; rfl
theorem Shape.pkrd : ∀ d h x m, Shape.Statement (.pkrd d h x m) := by
  intros; intro w e; cases e; simp (disch := omega) only [Shape.extract_high, Shape.opcode]; rfl
theorem Shape.pkwr : ∀ r h x m, Shape.Statement (.pkwr r h x m) := by
  intros; intro w e; cases e; simp (disch := omega) only [Shape.extract_high, Shape.opcode]; rfl
theorem Shape.pkwt : Shape.Statement .pkwt := by
  intro w e; cases e; simp (disch := omega) only [Shape.extract_high, Shape.opcode]; rfl
theorem Shape.objinit : ∀ r h o, Shape.Statement (.objinit r h o) := by
  intros; intro w e; cases e; simp (disch := omega) only [Shape.extract_high, Shape.opcode]; rfl
theorem Shape.pub : ∀ r h x c, Shape.Statement (.pub r h x c) := by
  intros; intro w e; cases e; simp (disch := omega) only [Shape.extract_high, Shape.opcode]; rfl
theorem Shape.aadd : ∀ d h x z c o, Shape.Statement (.aadd d h x z c o) := by
  intros; intro w e; cases e; simp (disch := omega) only [Shape.extract_high, Shape.opcode]; rfl
theorem Shape.aand : ∀ d h x z c o, Shape.Statement (.aand d h x z c o) := by
  intros; intro w e; cases e; simp (disch := omega) only [Shape.extract_high, Shape.opcode]; rfl
theorem Shape.aor : ∀ d h x z c o, Shape.Statement (.aor d h x z c o) := by
  intros; intro w e; cases e; simp (disch := omega) only [Shape.extract_high, Shape.opcode]; rfl
theorem Shape.axor : ∀ d h x z c o, Shape.Statement (.axor d h x z c o) := by
  intros; intro w e; cases e; simp (disch := omega) only [Shape.extract_high, Shape.opcode]; rfl
theorem Shape.amin : ∀ d h x z c o, Shape.Statement (.amin d h x z c o) := by
  intros; intro w e; cases e; simp (disch := omega) only [Shape.extract_high, Shape.opcode]; rfl
theorem Shape.amax : ∀ d h x z c o, Shape.Statement (.amax d h x z c o) := by
  intros; intro w e; cases e; simp (disch := omega) only [Shape.extract_high, Shape.opcode]; rfl
theorem Shape.aswp : ∀ d h x z c o, Shape.Statement (.aswp d h x z c o) := by
  intros; intro w e; cases e; simp (disch := omega) only [Shape.extract_high, Shape.opcode]; rfl
theorem Shape.acas : ∀ d h x z c o, Shape.Statement (.acas d h x z c o) := by
  intros; intro w e; cases e; simp (disch := omega) only [Shape.extract_high, Shape.opcode]; rfl
theorem Shape.fenceFull : ∀ c, Shape.Statement (.fenceFull c) := by
  intros; intro w e; cases e; simp (disch := omega) only [Shape.extract_high, Shape.opcode]; rfl
theorem Shape.fenceSs : ∀ c, Shape.Statement (.fenceSs c) := by
  intros; intro w e; cases e; simp (disch := omega) only [Shape.extract_high, Shape.opcode]; rfl
theorem Shape.fenceLl : ∀ c, Shape.Statement (.fenceLl c) := by
  intros; intro w e; cases e; simp (disch := omega) only [Shape.extract_high, Shape.opcode]; rfl
theorem Shape.fenceEngine : ∀ c, Shape.Statement (.fenceEngine c) := by
  intros; intro w e; cases e; simp (disch := omega) only [Shape.extract_high, Shape.opcode]; rfl
theorem Shape.monitor : ∀ h o, Shape.Statement (.monitor h o) := by
  intros; intro w e; cases e; simp (disch := omega) only [Shape.extract_high, Shape.opcode]; rfl
theorem Shape.mwait : ∀ d a, Shape.Statement (.mwait d a) := by
  intros; intro w e; cases e; simp (disch := omega) only [Shape.extract_high, Shape.opcode]; rfl
theorem Shape.rwfree : ∀ r h o, Shape.Statement (.rwfree r h o) := by
  intros; intro w e; cases e; simp (disch := omega) only [Shape.extract_high, Shape.opcode]; rfl
theorem Shape.rpost : ∀ r h o, Shape.Statement (.rpost r h o) := by
  intros; intro w e; cases e; simp (disch := omega) only [Shape.extract_high, Shape.opcode]; rfl
theorem Shape.rwfill : ∀ r h o, Shape.Statement (.rwfill r h o) := by
  intros; intro w e; cases e; simp (disch := omega) only [Shape.extract_high, Shape.opcode]; rfl
theorem Shape.rfree : ∀ r h o, Shape.Statement (.rfree r h o) := by
  intros; intro w e; cases e; simp (disch := omega) only [Shape.extract_high, Shape.opcode]; rfl
theorem Shape.fladd : ∀ d h x c o, Shape.Statement (.fladd d h x c o) := by
  intros; intro w e; cases e; simp (disch := omega) only [Shape.extract_high, Shape.opcode]; rfl
theorem Shape.flset : ∀ d h x c o, Shape.Statement (.flset d h x c o) := by
  intros; intro w e; cases e; simp (disch := omega) only [Shape.extract_high, Shape.opcode]; rfl
theorem Shape.flsetCoreFlag : ∀ d k, Shape.Statement (.flsetCoreFlag d k) := by
  intros; intro w e; cases e; simp (disch := omega) only [Shape.extract_high, Shape.opcode]; rfl
theorem Shape.flwait : ∀ d h x c o, Shape.Statement (.flwait d h x c o) := by
  intros; intro w e; cases e; simp (disch := omega) only [Shape.extract_high, Shape.opcode]; rfl
theorem Shape.flwaitCoreFlag : ∀ d k, Shape.Statement (.flwaitCoreFlag d k) := by
  intros; intro w e; cases e; simp (disch := omega) only [Shape.extract_high, Shape.opcode]; rfl
theorem Shape.drain : ∀ a k, Shape.Statement (.drain a k) := by
  intros; intro w e; cases e; simp (disch := omega) only [Shape.extract_high, Shape.opcode]; rfl
theorem Shape.qpush : ∀ a q, Shape.Statement (.qpush a q) := by
  intros; intro w e; cases e; simp (disch := omega) only [Shape.extract_high, Shape.opcode]; rfl
theorem Shape.qpop : ∀ d q, Shape.Statement (.qpop d q) := by
  intros; intro w e; cases e; simp (disch := omega) only [Shape.extract_high, Shape.opcode]; rfl
theorem Shape.qpoll : ∀ d q, Shape.Statement (.qpoll d q) := by
  intros; intro w e; cases e; simp (disch := omega) only [Shape.extract_high, Shape.opcode]; rfl
theorem Shape.gang : ∀ w, Shape.Statement (.gang w) := by
  intros; intro w e; cases e; simp (disch := omega) only [Shape.extract_high, Shape.opcode]; rfl
theorem Shape.fork : ∀ a, Shape.Statement (.fork a) := by
  intros; intro w e; cases e; simp (disch := omega) only [Shape.extract_high, Shape.opcode]; rfl
theorem Shape.join : ∀ g, Shape.Statement (.join g) := by
  intros; intro w e; cases e; simp (disch := omega) only [Shape.extract_high, Shape.opcode]; rfl
theorem Shape.spawn : ∀ h o, Shape.Statement (.spawn h o) := by
  intros; intro w e; cases e; simp (disch := omega) only [Shape.extract_high, Shape.opcode]; rfl
theorem Shape.jdec : ∀ h o, Shape.Statement (.jdec h o) := by
  intros; intro w e; cases e; simp (disch := omega) only [Shape.extract_high, Shape.opcode]; rfl
theorem Shape.commit : Shape.Statement .commit := by
  intro w e; cases e; simp (disch := omega) only [Shape.extract_high, Shape.opcode]; rfl
theorem Shape.unitDone : Shape.Statement .unitDone := by
  intro w e; cases e; simp (disch := omega) only [Shape.extract_high, Shape.opcode]; rfl
theorem Shape.yield : Shape.Statement .yield := by
  intro w e; cases e; simp (disch := omega) only [Shape.extract_high, Shape.opcode]; rfl
theorem Shape.cancel : ∀ a l, Shape.Statement (.cancel a l) := by
  intros; intro w e; cases e; simp (disch := omega) only [Shape.extract_high, Shape.opcode]; rfl
theorem Shape.ccnt : ∀ d a r l, Shape.Statement (.ccnt d a r l) := by
  intros; intro w e; cases e; simp (disch := omega) only [Shape.extract_high, Shape.opcode]; rfl
theorem Shape.tmpl : ∀ t a c, Shape.Statement (.tmpl t a c) := by
  intros; intro w e; cases e; simp (disch := omega) only [Shape.extract_high, Shape.opcode]; rfl
theorem Shape.wir : ∀ t a m f k, Shape.Statement (.wir t a m f k) := by
  intros; intro w e; cases e; simp (disch := omega) only [Shape.extract_high, Shape.opcode]; rfl
theorem Shape.wmov : ∀ w a, Shape.Statement (.wmov w a) := by
  intros; intro w e; cases e; simp (disch := omega) only [Shape.extract_high, Shape.opcode]; rfl
theorem Shape.wget : ∀ d w, Shape.Statement (.wget d w) := by
  intros; intro w e; cases e; simp (disch := omega) only [Shape.extract_high, Shape.opcode]; rfl
theorem Shape.vlease : ∀ d n, Shape.Statement (.vlease d n) := by
  intros; intro w e; cases e; simp (disch := omega) only [Shape.extract_high, Shape.opcode]; rfl
theorem Shape.vfree : Shape.Statement .vfree := by
  intro w e; cases e; simp (disch := omega) only [Shape.extract_high, Shape.opcode]; rfl
theorem Shape.axbegin : ∀ o, Shape.Statement (.axbegin o) := by
  intros; intro w e; cases e; simp (disch := omega) only [Shape.extract_high, Shape.opcode]; rfl
theorem Shape.axend : Shape.Statement .axend := by
  intro w e; cases e; simp (disch := omega) only [Shape.extract_high, Shape.opcode]; rfl
theorem Shape.axinv : ∀ a, Shape.Statement (.axinv a) := by
  intros; intro w e; cases e; simp (disch := omega) only [Shape.extract_high, Shape.opcode]; rfl
theorem Shape.axstat : ∀ d a, Shape.Statement (.axstat d a) := by
  intros; intro w e; cases e; simp (disch := omega) only [Shape.extract_high, Shape.opcode]; rfl
theorem Shape.pfx : ∀ n a b r, Shape.Statement (.pfx n a b r) := by
  intros; intro w e; cases e; simp (disch := omega) only [Shape.extract_high, Shape.opcode]; rfl
theorem Shape.seal : ∀ d o, Shape.Statement (.seal d o) := by
  intros; intro w e; cases e; simp (disch := omega) only [Shape.extract_high, Shape.opcode]; rfl
theorem Shape.nlease : ∀ a n, Shape.Statement (.nlease a n) := by
  intros; intro w e; cases e; simp (disch := omega) only [Shape.extract_high, Shape.opcode]; rfl
theorem Shape.nrefInc : ∀ n, Shape.Statement (.nrefInc n) := by
  intros; intro w e; cases e; simp (disch := omega) only [Shape.extract_high, Shape.opcode]; rfl
theorem Shape.nrefDec : ∀ n, Shape.Statement (.nrefDec n) := by
  intros; intro w e; cases e; simp (disch := omega) only [Shape.extract_high, Shape.opcode]; rfl
theorem Shape.nxl : ∀ h a b n, Shape.Statement (.nxl h a b n) := by
  intros; intro w e; cases e; simp (disch := omega) only [Shape.extract_high, Shape.opcode]; rfl
theorem Shape.nfetch : ∀ d n, Shape.Statement (.nfetch d n) := by
  intros; intro w e; cases e; simp (disch := omega) only [Shape.extract_high, Shape.opcode]; rfl
theorem Shape.nopen : ∀ d p, Shape.Statement (.nopen d p) := by
  intros; intro w e; cases e; simp (disch := omega) only [Shape.extract_high, Shape.opcode]; rfl
theorem Shape.ndrop : ∀ n, Shape.Statement (.ndrop n) := by
  intros; intro w e; cases e; simp (disch := omega) only [Shape.extract_high, Shape.opcode]; rfl
theorem Shape.crr : ∀ d c, Shape.Statement (.crr d c) := by
  intros; intro w e; cases e; simp (disch := omega) only [Shape.extract_high, Shape.opcode]; rfl
theorem Shape.crw : ∀ a c, Shape.Statement (.crw a c) := by
  intros; intro w e; cases e; simp (disch := omega) only [Shape.extract_high, Shape.opcode]; rfl
theorem Shape.trap : ∀ c, Shape.Statement (.trap c) := by
  intros; intro w e; cases e; simp (disch := omega) only [Shape.extract_high, Shape.opcode]; rfl
theorem Shape.trapHarvestService : Shape.Statement .trapHarvestService := by
  intro w e; cases e; simp (disch := omega) only [Shape.extract_high, Shape.opcode]; rfl
theorem Shape.trapPageAnswerService : Shape.Statement .trapPageAnswerService := by
  intro w e; cases e; simp (disch := omega) only [Shape.extract_high, Shape.opcode]; rfl
theorem Shape.eret : Shape.Statement .eret := by
  intro w e; cases e; simp (disch := omega) only [Shape.extract_high, Shape.opcode]; rfl
theorem Shape.patchWord : ∀ t m f k v, Shape.Statement (.patchWord t m f k v) := by
  intros; intro w e; cases e; simp (disch := omega) only [Shape.extract_high, Shape.opcode]; rfl
theorem Shape.tld : ∀ cl, Shape.Statement (.tld cl) := by intros; intro w e; cases e
theorem Shape.vld : ∀ cl, Shape.Statement (.vld cl) := by intros; intro w e; cases e
theorem Shape.vldg : ∀ cl, Shape.Statement (.vldg cl) := by intros; intro w e; cases e
theorem Shape.spcpy : ∀ cl, Shape.Statement (.spcpy cl) := by intros; intro w e; cases e
theorem Shape.cpy : ∀ cl, Shape.Statement (.cpy cl) := by intros; intro w e; cases e
theorem Shape.cpyg : ∀ cl, Shape.Statement (.cpyg cl) := by intros; intro w e; cases e
theorem Shape.cpyr : ∀ cl, Shape.Statement (.cpyr cl) := by intros; intro w e; cases e
theorem Shape.cpyn : ∀ cl, Shape.Statement (.cpyn cl) := by intros; intro w e; cases e
theorem Shape.tabld : ∀ cl, Shape.Statement (.tabld cl) := by intros; intro w e; cases e
theorem Shape.gload : ∀ cl, Shape.Statement (.gload cl) := by intros; intro w e; cases e
theorem Shape.vaddf : ∀ cl, Shape.Statement (.vaddf cl) := by intros; intro w e; cases e
theorem Shape.vsubf : ∀ cl, Shape.Statement (.vsubf cl) := by intros; intro w e; cases e
theorem Shape.vmulf : ∀ cl, Shape.Statement (.vmulf cl) := by intros; intro w e; cases e
theorem Shape.vfmaf : ∀ cl, Shape.Statement (.vfmaf cl) := by intros; intro w e; cases e
theorem Shape.vminf : ∀ cl, Shape.Statement (.vminf cl) := by intros; intro w e; cases e
theorem Shape.vmaxf : ∀ cl, Shape.Statement (.vmaxf cl) := by intros; intro w e; cases e
theorem Shape.vsgnf : ∀ cl, Shape.Statement (.vsgnf cl) := by intros; intro w e; cases e
theorem Shape.vexp2 : ∀ cl, Shape.Statement (.vexp2 cl) := by intros; intro w e; cases e
theorem Shape.vlog2 : ∀ cl, Shape.Statement (.vlog2 cl) := by intros; intro w e; cases e
theorem Shape.vrcp : ∀ cl, Shape.Statement (.vrcp cl) := by intros; intro w e; cases e
theorem Shape.vrsqrt : ∀ cl, Shape.Statement (.vrsqrt cl) := by intros; intro w e; cases e
theorem Shape.vcvt : ∀ cl, Shape.Statement (.vcvt cl) := by intros; intro w e; cases e
theorem Shape.vcmpf : ∀ cl, Shape.Statement (.vcmpf cl) := by intros; intro w e; cases e
theorem Shape.vsel : ∀ cl, Shape.Statement (.vsel cl) := by intros; intro w e; cases e
theorem Shape.vaddi : ∀ cl, Shape.Statement (.vaddi cl) := by intros; intro w e; cases e
theorem Shape.vsubi : ∀ cl, Shape.Statement (.vsubi cl) := by intros; intro w e; cases e
theorem Shape.vmuli : ∀ cl, Shape.Statement (.vmuli cl) := by intros; intro w e; cases e
theorem Shape.vand : ∀ cl, Shape.Statement (.vand cl) := by intros; intro w e; cases e
theorem Shape.vor : ∀ cl, Shape.Statement (.vor cl) := by intros; intro w e; cases e
theorem Shape.vxor : ∀ cl, Shape.Statement (.vxor cl) := by intros; intro w e; cases e
theorem Shape.vshl : ∀ cl, Shape.Statement (.vshl cl) := by intros; intro w e; cases e
theorem Shape.vshr : ∀ cl, Shape.Statement (.vshr cl) := by intros; intro w e; cases e
theorem Shape.vsar : ∀ cl, Shape.Statement (.vsar cl) := by intros; intro w e; cases e
theorem Shape.vmini : ∀ cl, Shape.Statement (.vmini cl) := by intros; intro w e; cases e
theorem Shape.vmaxi : ∀ cl, Shape.Statement (.vmaxi cl) := by intros; intro w e; cases e
theorem Shape.vcmpi : ∀ cl, Shape.Statement (.vcmpi cl) := by intros; intro w e; cases e
theorem Shape.vbcast : ∀ cl, Shape.Statement (.vbcast cl) := by intros; intro w e; cases e
theorem Shape.viota : ∀ cl, Shape.Statement (.viota cl) := by intros; intro w e; cases e
theorem Shape.vperm : ∀ cl, Shape.Statement (.vperm cl) := by intros; intro w e; cases e
theorem Shape.vredsum : ∀ cl, Shape.Statement (.vredsum cl) := by intros; intro w e; cases e
theorem Shape.vredmax : ∀ cl, Shape.Statement (.vredmax cl) := by intros; intro w e; cases e
theorem Shape.vargmax : ∀ cl, Shape.Statement (.vargmax cl) := by intros; intro w e; cases e
theorem Shape.vtopk : ∀ cl, Shape.Statement (.vtopk cl) := by intros; intro w e; cases e
theorem Shape.vpopc : ∀ cl, Shape.Statement (.vpopc cl) := by intros; intro w e; cases e
theorem Shape.vmovs : ∀ cl, Shape.Statement (.vmovs cl) := by intros; intro w e; cases e
theorem Shape.vscan : ∀ cl, Shape.Statement (.vscan cl) := by intros; intro w e; cases e
theorem Shape.plog : ∀ cl, Shape.Statement (.plog cl) := by intros; intro w e; cases e
theorem Shape.mma : ∀ cl, Shape.Statement (.mma cl) := by intros; intro w e; cases e
theorem Shape.mmas : ∀ cl, Shape.Statement (.mmas cl) := by intros; intro w e; cases e
theorem Shape.aclr : ∀ cl, Shape.Statement (.aclr cl) := by intros; intro w e; cases e
theorem Shape.ard : ∀ cl, Shape.Statement (.ard cl) := by intros; intro w e; cases e
theorem Shape.txp : ∀ cl, Shape.Statement (.txp cl) := by intros; intro w e; cases e
theorem Shape.tabsel : ∀ cl, Shape.Statement (.tabsel cl) := by intros; intro w e; cases e
theorem Shape.awr : ∀ cl, Shape.Statement (.awr cl) := by intros; intro w e; cases e
theorem Shape.gmv : ∀ cl, Shape.Statement (.gmv cl) := by intros; intro w e; cases e
theorem Shape.grvf : ∀ cl, Shape.Statement (.grvf cl) := by intros; intro w e; cases e
theorem Shape.tst : ∀ cl, Shape.Statement (.tst cl) := by intros; intro w e; cases e
theorem Shape.vst : ∀ cl, Shape.Statement (.vst cl) := by intros; intro w e; cases e
theorem Shape.vsts : ∀ cl, Shape.Statement (.vsts cl) := by intros; intro w e; cases e
theorem Shape.cpyo : ∀ cl, Shape.Statement (.cpyo cl) := by intros; intro w e; cases e
theorem Shape.cpys : ∀ cl, Shape.Statement (.cpys cl) := by intros; intro w e; cases e
theorem Shape.ardst : ∀ cl, Shape.Statement (.ardst cl) := by intros; intro w e; cases e
theorem Shape.cpynw : ∀ cl, Shape.Statement (.cpynw cl) := by intros; intro w e; cases e
theorem Shape.wideOperationComplete : ∀ cl q, Shape.Statement (.wideOperationComplete cl q) := by intros; intro w e; cases e
theorem Shape.vatArbitration : ∀ core, Shape.Statement (.vatArbitration core) := by intros; intro w e; cases e
theorem Shape.vatGrant : ∀ core, Shape.Statement (.vatGrant core) := by intros; intro w e; cases e
theorem Shape.vatOccupancyEnd : ∀ core, Shape.Statement (.vatOccupancyEnd core) := by intros; intro w e; cases e
theorem Shape.leaseTimeout : ∀ core, Shape.Statement (.leaseTimeout core) := by intros; intro w e; cases e
theorem Shape.vatCommandComplete : ∀ core, Shape.Statement (.vatCommandComplete core) := by intros; intro w e; cases e
theorem Shape.vatPowerDown : ∀ core, Shape.Statement (.vatPowerDown core) := by intros; intro w e; cases e
theorem Shape.translationWindowEnd : ∀ bank h, Shape.Statement (.translationWindowEnd bank h) := by intros; intro w e; cases e
theorem Shape.pageWalkComplete : ∀ bank h, Shape.Statement (.pageWalkComplete bank h) := by intros; intro w e; cases e
theorem Shape.packetHomeWrite : ∀ cl tag, Shape.Statement (.packetHomeWrite cl tag) := by intros; intro w e; cases e
theorem Shape.packetReply : ∀ cl tag, Shape.Statement (.packetReply cl tag) := by intros; intro w e; cases e
theorem Shape.fladdPerform : ∀ bank, Shape.Statement (.fladdPerform bank) := by intros; intro w e; cases e
theorem Shape.mwaitWake : ∀ bank, Shape.Statement (.mwaitWake bank) := by intros; intro w e; cases e
theorem Shape.mwaitTimeout : ∀ bank, Shape.Statement (.mwaitTimeout bank) := by intros; intro w e; cases e
theorem Shape.flwaitWake : ∀ bank, Shape.Statement (.flwaitWake bank) := by intros; intro w e; cases e
theorem Shape.loopmFlagWake : ∀ bank, Shape.Statement (.loopmFlagWake bank) := by intros; intro w e; cases e
theorem Shape.queueRegisterWake : ∀ bank, Shape.Statement (.queueRegisterWake bank) := by intros; intro w e; cases e
theorem Shape.ringWaitWake : ∀ bank, Shape.Statement (.ringWaitWake bank) := by intros; intro w e; cases e
theorem Shape.joinReform : ∀ bank g, Shape.Statement (.joinReform bank g) := by intros; intro w e; cases e
theorem Shape.drainComplete : ∀ core k, Shape.Statement (.drainComplete core k) := by intros; intro w e; cases e
theorem Shape.place : ∀ core, Shape.Statement (.place core) := by intros; intro w e; cases e
theorem Shape.victimDiscard : ∀ bank, Shape.Statement (.victimDiscard bank) := by intros; intro w e; cases e
theorem Shape.cancelDiscard : ∀ bank, Shape.Statement (.cancelDiscard bank) := by intros; intro w e; cases e
theorem Shape.commitBudget : ∀ bank, Shape.Statement (.commitBudget bank) := by intros; intro w e; cases e
theorem Shape.watchdog : ∀ bank, Shape.Statement (.watchdog bank) := by intros; intro w e; cases e
theorem Shape.takePendingTrap : ∀ bank, Shape.Statement (.takePendingTrap bank) := by intros; intro w e; cases e
theorem Shape.pageFaultDrain : ∀ cl, Shape.Statement (.pageFaultDrain cl) := by intros; intro w e; cases e
theorem Shape.bankAResume : ∀ cl, Shape.Statement (.bankAResume cl) := by intros; intro w e; cases e
theorem Shape.pageRequestTimeout : ∀ p id, Shape.Statement (.pageRequestTimeout p id) := by intros; intro w e; cases e
theorem Shape.nfetchComplete : ∀ bank reply, Shape.Statement (.nfetchComplete bank reply) := by intros; intro w e; cases e
theorem Shape.forwardedRead : ∀ name, Shape.Statement (.forwardedRead name) := by intros; intro w e; cases e
theorem Shape.remoteProbe : ∀ name, Shape.Statement (.remoteProbe name) := by intros; intro w e; cases e
theorem Shape.holderRegistration : ∀ add device entry, Shape.Statement (.holderRegistration add device entry) := by intros; intro w e; cases e
theorem Shape.peerMemoryRequest : ∀ pa n req, Shape.Statement (.peerMemoryRequest pa n req) := by intros; intro w e; cases e
theorem Shape.churnCapture : ∀ die, Shape.Statement (.churnCapture die) := by intros; intro w e; cases e
theorem Shape.patrolScrub : ∀ line, Shape.Statement (.patrolScrub line) := by intros; intro w e; cases e
theorem Shape.hostMemoryWrite : ∀ pa bytes, Shape.Statement (.hostMemoryWrite pa bytes) := by intros; intro w e; cases e
theorem Shape.jobRingNotify : ∀ slot, Shape.Statement (.jobRingNotify slot) := by intros; intro w e; cases e
theorem Shape.claim : ∀ m, Shape.Statement (.claim m) := by intros; intro w e; cases e
theorem Shape.release : ∀ m, Shape.Statement (.release m) := by intros; intro w e; cases e
theorem Shape.heartbeat : ∀ m, Shape.Statement (.heartbeat m) := by intros; intro w e; cases e
theorem Shape.handover : ∀ m target, Shape.Statement (.handover m target) := by intros; intro w e; cases e
theorem Shape.accept : ∀ m, Shape.Statement (.accept m) := by intros; intro w e; cases e
theorem Shape.ownershipLapse : Shape.Statement .ownershipLapse := by intro w e; cases e
theorem Shape.partCreate : ∀ m w, Shape.Statement (.partCreate m w) := by intros; intro w e; cases e
theorem Shape.partDestroy : ∀ m w, Shape.Statement (.partDestroy m w) := by intros; intro w e; cases e
theorem Shape.moveIsland : ∀ m w, Shape.Statement (.moveIsland m w) := by intros; intro w e; cases e
theorem Shape.moveGroup : ∀ m w, Shape.Statement (.moveGroup m w) := by intros; intro w e; cases e
theorem Shape.partApply : ∀ m w, Shape.Statement (.partApply m w) := by intros; intro w e; cases e
theorem Shape.partCmdComplete : Shape.Statement .partCmdComplete := by intro w e; cases e
theorem Shape.managementRegisterWrite : ∀ m off w, Shape.Statement (.managementRegisterWrite m off w) := by intros; intro w e; cases e
theorem Shape.refusedWritesRead : ∀ m, Shape.Statement (.refusedWritesRead m) := by intros; intro w e; cases e
theorem Shape.pwrDomReq : ∀ m imm req, Shape.Statement (.pwrDomReq m imm req) := by intros; intro w e; cases e
theorem Shape.harvest : ∀ w, Shape.Statement (.harvest w) := by intros; intro w e; cases e
theorem Shape.revoke : ∀ w, Shape.Statement (.revoke w) := by intros; intro w e; cases e
theorem Shape.revokeAll : ∀ w, Shape.Statement (.revokeAll w) := by intros; intro w e; cases e
theorem Shape.spFailedWrite : ∀ core w, Shape.Statement (.spFailedWrite core w) := by intros; intro w e; cases e
theorem Shape.scratchpadRebuildDone : ∀ core which, Shape.Statement (.scratchpadRebuildDone core which) := by intros; intro w e; cases e
theorem Shape.vatIdleWrite : ∀ core w, Shape.Statement (.vatIdleWrite core w) := by intros; intro w e; cases e
theorem Shape.vfFlr : ∀ slot, Shape.Statement (.vfFlr slot) := by intros; intro w e; cases e
theorem Shape.pfFlr : ∀ portB, Shape.Statement (.pfFlr portB) := by intros; intro w e; cases e
theorem Shape.pageAnswerRetry : ∀ p id, Shape.Statement (.pageAnswerRetry p id) := by intros; intro w e; cases e
theorem Shape.pageAnswerFail : ∀ p id, Shape.Statement (.pageAnswerFail p id) := by intros; intro w e; cases e
theorem Shape.mctpRead : ∀ off, Shape.Statement (.mctpRead off) := by intros; intro w e; cases e
theorem Shape.mctpWrite : ∀ off w, Shape.Statement (.mctpWrite off w) := by intros; intro w e; cases e
theorem Shape.getEndpointId : Shape.Statement .getEndpointId := by intro w e; cases e
theorem Shape.setEndpointId : ∀ eid, Shape.Statement (.setEndpointId eid) := by intros; intro w e; cases e
theorem Shape.getMctpVersionSupport : Shape.Statement .getMctpVersionSupport := by intro w e; cases e
theorem Shape.getMessageTypeSupport : Shape.Statement .getMessageTypeSupport := by intro w e; cases e
theorem Shape.getVendorDefinedMessageSupport : Shape.Statement .getVendorDefinedMessageSupport := by intro w e; cases e
theorem Shape.getVersion : Shape.Statement .getVersion := by intro w e; cases e
theorem Shape.getCapabilities : Shape.Statement .getCapabilities := by intro w e; cases e
theorem Shape.negotiateAlgorithms : ∀ asym hash, Shape.Statement (.negotiateAlgorithms asym hash) := by intros; intro w e; cases e
theorem Shape.getDigests : Shape.Statement .getDigests := by intro w e; cases e
theorem Shape.getCertificate : ∀ slot, Shape.Statement (.getCertificate slot) := by intros; intro w e; cases e
theorem Shape.challenge : ∀ slot nonce, Shape.Statement (.challenge slot nonce) := by intros; intro w e; cases e
theorem Shape.getMeasurements : ∀ block, Shape.Statement (.getMeasurements block) := by intros; intro w e; cases e
theorem Shape.powerOn : ∀ images, Shape.Statement (.powerOn images) := by intros; intro w e; cases e
theorem Shape.thermalThrottle : ∀ watts temps, Shape.Statement (.thermalThrottle watts temps) := by intros; intro w e; cases e
theorem Shape.clockRestore : ∀ watts temps, Shape.Statement (.clockRestore watts temps) := by intros; intro w e; cases e
theorem Shape.criticalShutdown : ∀ temps, Shape.Statement (.criticalShutdown temps) := by intros; intro w e; cases e
theorem Shape.islandClockGate : ∀ island, Shape.Statement (.islandClockGate island) := by intros; intro w e; cases e
theorem Shape.bucketRefill : ∀ p which, Shape.Statement (.bucketRefill p which) := by intros; intro w e; cases e
theorem Shape.hostMemoryRead : ∀ pa n, Shape.Statement (.hostMemoryRead pa n) := by intros; intro w e; cases e
theorem Shape.harvestCommandDone : Shape.Statement .harvestCommandDone := by intro w e; cases e

end Sys2Proof.Laws
end

