-- ==== Sys2Proof/Tests/Slice0.lean ====
section
/-! SUPPORT. Tests on fixed values: ill-formed terms that the checks refuse, words of every encoding of the spec, and for each statement
a small state that meets its hypotheses, with what the spec gives there. -/

set_option Elab.async false

namespace Sys2Proof.Tests

open Sys2Proof Sys2Proof.Machine

/-! ## Well-formedness (R98-R102, R112) -/

/-- One ill-formed term for each check. -/
theorem test_ill_formed_words :
    ([.mulh 1 2 3 3, .cmp 1 2 3 6, .loop 1 2 5, .loop 1 0 0, .loopm 1 2 0 5, .loopm 1 0 0 0, .ldx 1 2 3 1 3, .ldacq 1 2 3 1 0 3,
      .ldacq 1 2 3 0 6 0, .strel 1 2 3 7 0, .xlate 0 1 0, .hdrop 0, .pkrd 1 2 3 0, .pkwr 1 2 3 0, .pub 1 2 3 6, .aadd 1 2 3 0 6 0,
      .aand 1 2 3 0 6 0, .aor 1 2 3 0 6 0, .axor 1 2 3 0 6 0, .amin 1 2 3 0 6 0, .amax 1 2 3 0 6 0, .aswp 1 2 3 0 6 0,
      .acas 1 2 3 0 6 0, .acas 63 2 3 0 0 0, .fenceFull 6, .fenceSs 6, .fenceLl 6, .fenceEngine 6, .fladd 1 2 3 6 0, .flset 1 2 3 6 0,
      .flset 1 2 3 0 1, .flset 1 2 3 0 3, .flwait 1 2 3 6 0, .flwait 1 2 3 0 2, .flwait 1 2 3 0 3, .gang 3, .cancel 1 0, .cancel 1 5,
      .ccnt 1 2 0 0, .ccnt 1 2 0 5, .tmpl 63 1 1, .tmpl 1 1 63, .wir 0 1 0 0 0, .wir 0 0 1 0 0, .vlease 1 0,
      .vlease 1 65, .nxl 0 1 2 3, .crr 1 0x00A, .crr 1 0x116, .crw 1 0x208, .crw 1 0x803, .trap 0xFF0, .trap 0xFF1,
      .patchWord 0 0 0 0 1, .patchWord 0 1 0 0 0] : List Instr).all (fun i => !i.wellFormed) = true := by
  decide +kernel

/-- The neighbours of those terms at the ends of the ranges are well-formed. -/
theorem test_well_formed_words :
    ([.mulh 1 2 3 2, .cmp 1 2 3 5, .loop 1 1 0xFFF, .loopm 1 1 63 1, .ldx 1 2 3 0 3, .ldacq 1 2 3 0 5 3, .xlate 15 1 0, .pkrd 1 2 3 1,
      .acas 62 2 3 1 5 3, .flset 1 2 3 5 2, .flwait 1 2 3 5 1, .gang 2, .cancel 1 4, .ccnt 1 2 1 1, .tmpl 0 1 63, .tmpl 63 1 0, .wir 0 1 0 1 15,
      .wir 0 0 0 0 0, .vlease 1 64, .crr 1 0x4FF, .crw 1 0x802, .trap 0xFFF, .patchWord 63 1 7 15 0xFFFF] : List Instr).all
      (fun i => i.wellFormed) = true := by
  decide +kernel

/-- One step of another agent for each place that does not exist, and for each operation its value must hold. -/
theorem test_ill_formed_steps :
    ([.tld 768, .vaddf 768, .mma 768, .cpynw 768, .wideOperationComplete 768 .L, .vatArbitration 192, .vatGrant 192, .vatOccupancyEnd 192,
      .leaseTimeout 192, .vatCommandComplete 192, .vatPowerDown 192, .translationWindowEnd 1536 1, .translationWindowEnd 0 16,
      .pageWalkComplete 1536 1, .pageWalkComplete 0 16, .packetHomeWrite 768 0, .packetHomeWrite 0 8, .packetReply 768 0, .packetReply 0 8,
      .fladdPerform 1536, .mwaitWake 1536, .mwaitTimeout 1536, .flwaitWake 1536, .loopmFlagWake 1536, .queueRegisterWake 1536,
      .ringWaitWake 1536, .joinReform 1536 0, .joinReform 0 8, .drainComplete 192 0, .drainComplete 0 64, .place 192, .victimDiscard 1536,
      .cancelDiscard 1536, .commitBudget 1536, .watchdog 1536, .takePendingTrap 1536, .pageFaultDrain 768, .bankAResume 768,
      .pageRequestTimeout 16 1, .nfetchComplete 1536 none, .churnCapture 4, .jobRingNotify 32, .partCreate .bmc 2, .partDestroy .bmc 1,
      .moveIsland .bmc 4, .moveGroup .bmc 3, .partApply .bmc 1, .pwrDomReq .bmc 18 0, .harvest 0x20, .revoke 0x10, .revokeAll 0x10,
      .spFailedWrite 192 0, .scratchpadRebuildDone 192 false, .vatIdleWrite 192 0, .vfFlr 32, .pageAnswerRetry 16 1, .pageAnswerFail 16 1,
      .islandClockGate 16, .bucketRefill 16 .hbm] : List Instr).all (fun i => !i.wellFormed) = true := by
  decide +kernel

/-! ## Decoding (R95-R103, R112) -/

/-- Each word decodes to the instruction beside it. -/
def allRead (es : List (BitVec 32 × Instr)) : Bool :=
  es.all (fun e => match decode e.1 with | .ok i => decide (i = e.2) | .error _ => false)

/-- Words that the spec writes out beside their assembler text. -/
theorem test_decode_examples : allRead [
    (0xBC200001, .crr 8 0x001), (0x61149001, .xlate 5 9 1), (0x612C9000, .xlate 11 9 0), (0x620C5003, .hinfo 3 5 3),
    (0x5B0C8502, .ldx 3 2 5 0 2), (0x5C100901, .stx 4 0 9 1), (0x640C4000, .stlk 3 4), (0xB4044140, .pfx 1 4 5 0), (0xB4044141, .pfx 1 4 5 1),
    (0xB6006002, .nlease 6 2), (0xB7000002, .nrefInc 2), (0xB700000A, .nrefDec 2), (0xB3245000, .axstat 9 5), (0xB0000006, .axbegin 6), (0xA924C180, .wir 9 12 0 1 8),
    (0x5A108000, .std 4 2 0), (0x6014860A, .strel 5 2 6 2 2), (0x5F0D060A, .ldacq 3 4 6 0 2 2), (0x80288B2F, .aadd 10 2 11 1 3 3),
    (0x87808E0F, .acas 32 2 14 0 3 3), (0x902C8D0E, .fladd 11 2 13 3 2), (0x913C8E0E, .flset 15 2 14 3 2),
    (0x923C8E0D, .flwait 15 2 14 3 1), (0xBE000005, .trap 5), (0xBE000FF0, .trapHarvestService), (0xBCF00002, .crr 60 2),
    (0x22F3C800, .ori 60 60 0x800), (0xBD03C002, .crw 60 2), (0xBF000000, .eret), (0xA5005001, .cancel 5 1), (0xA61C5009, .ccnt 7 5 1 1),
    (0x49800002, .loop 32 0 2), (0x8800000C, .fenceFull 3), (0x88000007, .fenceEngine 1), (0x6A000000, .pkwt), (0xA3000000, .unitDone),
    (0xA2000000, .commit), (0xA0004000, .spawn 1 0), (0xBA080001, .nopen 2 1), (0xB811B7C2, .nxl 4 27 31 2), (0xB5040002, .seal 1 2),
    (0xAC300001, .vlease 12 1), (0xAD000000, .vfree), (0x5EFC81C1, .stref 63 2 449), (0x6600B000, .stinv 11), (0x6500A680, .stins 10 26),
    (0x143CC000, .popc 15 12), (0x1174F74C, .sel 29 15 29 12)] = true := by
  decide +kernel

/-- Words that are no instruction: a reserved opcode, a fixed bit set, reserved values of a condition, a width, a scope and h0. -/
theorem test_reserved_words_are_rejected :
    ([0x3F000000, 0x00000001, 0x10000006, 0x03000003, 0x88000018, 0x61009000, 0xAC500000, 0xAC500041, 0x6B000000, 0xBC20000A] : List (BitVec 32)).all
      (fun w => match decode w with | .ok _ => false | .error _ => true) = true := by
  decide +kernel

/-- Words of the integer family, from the match and the fields of spec/opcode_table.json. -/
theorem test_decode_integer : allRead [
    (0x008D3940, .add 35 19 37), (0x018D3940, .sub 35 19 37), (0x028D3940, .mul 35 19 37), (0x038D3942, .mulh 35 19 37 2),
    (0x048D3941, .div 35 19 37 1), (0x058D3941, .rem 35 19 37 1), (0x068D3940, .and 35 19 37), (0x078D3940, .or 35 19 37),
    (0x088D3940, .xor 35 19 37), (0x098D3940, .andn 35 19 37), (0x0A8D3940, .shl 35 19 37), (0x0B8D3940, .shr 35 19 37),
    (0x0C8D3940, .sar 35 19 37), (0x0D8D3940, .ror 35 19 37), (0x0E8D3941, .min 35 19 37 1), (0x0F8D3941, .max 35 19 37 1),
    (0x108D3945, .cmp 35 19 37 5), (0x118D3945, .sel 35 19 37 5), (0x128D3000, .clz 35 19), (0x138D3000, .ctz 35 19),
    (0x148D3000, .popc 35 19), (0x158D3942, .shadd 35 19 37 2), (0x168D3975, .bfx 35 19 37 53), (0x178D3975, .bfi 35 19 37 53),
    (0x208D39A5, .addi 35 19 0x9A5), (0x218D39A5, .andi 35 19 0x9A5), (0x228D39A5, .ori 35 19 0x9A5),
    (0x238D39A5, .xori 35 19 0x9A5), (0x248D3025, .shli 35 19 37), (0x258D3025, .shri 35 19 37), (0x268D3025, .sari 35 19 37),
    (0x278D39A5, .muli 35 19 0x9A5), (0x288D39A5, .cmpeqi 35 19 0x9A5), (0x298D39A5, .cmplti 35 19 0x9A5),
    (0x2A8D39A5, .cmpltui 35 19 0x9A5), (0x308EC9A5, .li 35 0x2C9A5), (0x318EC9A5, .lis 35 0x2C9A5),
    (0x328EC9A5, .addpc 35 0x2C9A5)] = true := by
  decide +kernel

/-- Words of the transfers family, from the match and the fields of spec/opcode_table.json. -/
theorem test_decode_transfers : allRead [
    (0x404E5A95, .beq 19 37 0xA95), (0x414E5A95, .bne 19 37 0xA95), (0x424E5A95, .blt 19 37 0xA95),
    (0x434E5A95, .bge 19 37 0xA95), (0x444E5A95, .bltu 19 37 0xA95), (0x454E5A95, .bgeu 19 37 0xA95),
    (0x46002A95, .jmp 0x2A95), (0x47002A95, .jal 0x2A95), (0x488D39A5, .jr 35 19 0x9A5), (0x494D0B31, .loop 19 1 0xB31),
    (0x4AA46B31, .loopm 10 1 6 0xB31)] = true := by
  decide +kernel

/-- Words of the accesses family, from the match and the fields of spec/opcode_table.json. -/
theorem test_decode_accesses : allRead [
    (0x508EAA95, .ldb 35 10 0x2A95), (0x518EAA95, .ldbu 35 10 0x2A95), (0x528EAA95, .ldh 35 10 0x2A95),
    (0x538EAA95, .ldhu 35 10 0x2A95), (0x548EAA95, .ldw 35 10 0x2A95), (0x558EAA95, .ldwu 35 10 0x2A95),
    (0x568EAA95, .ldd 35 10 0x2A95), (0x5756AA95, .stb 21 10 0x2A95), (0x5856AA95, .sth 21 10 0x2A95),
    (0x5956AA95, .stw 21 10 0x2A95), (0x5A56AA95, .std 21 10 0x2A95), (0x5B8EA906, .ldx 35 10 41 1 2),
    (0x5C56A901, .stx 21 10 41 1), (0x5D8EAA95, .ldref 35 10 0x2A95), (0x5E56AA95, .stref 21 10 0x2A95),
    (0x5F8EA935, .ldacq 35 10 41 1 5 1), (0x6056A915, .strel 21 10 41 5 1)] = true := by
  decide +kernel

/-- Words of the handles family, from the match and the fields of spec/opcode_table.json. -/
theorem test_decode_handles : allRead [
    (0x61293001, .xlate 10 19 1), (0x628CA002, .hinfo 35 10 2), (0x6300A000, .hdrop 10), (0x648D3000, .stlk 35 19),
    (0x65013940, .stins 19 37), (0x66013000, .stinv 19), (0x688EA9A6, .pkrd 35 10 41 0xA6), (0x6956A9A6, .pkwr 21 10 41 0xA6),
    (0x6A000000, .pkwt), (0x6C56AA95, .objinit 21 10 0x2A95)] = true := by
  decide +kernel

/-- Words of the synchronisation family, from the match and the fields of spec/opcode_table.json. -/
theorem test_decode_synchronisation : allRead [
    (0x6DAAA914, .pub 42 10 41 5), (0x808EA935, .aadd 35 10 41 1 5 1), (0x818EA935, .aand 35 10 41 1 5 1),
    (0x828EA935, .aor 35 10 41 1 5 1), (0x838EA935, .axor 35 10 41 1 5 1), (0x848EA935, .amin 35 10 41 1 5 1),
    (0x858EA935, .amax 35 10 41 1 5 1), (0x868EA935, .aswp 35 10 41 1 5 1), (0x878EA935, .acas 35 10 41 1 5 1),
    (0x88000014, .fenceFull 5), (0x88000015, .fenceSs 5), (0x88000016, .fenceLl 5), (0x88000017, .fenceEngine 5),
    (0x8902AA95, .monitor 10 0x2A95), (0x8A8D3000, .mwait 35 19), (0x8CAAAA95, .rwfree 42 10 0x2A95),
    (0x8DAAAA95, .rpost 42 10 0x2A95), (0x8EAAAA95, .rwfill 42 10 0x2A95), (0x8FAAAA95, .rfree 42 10 0x2A95),
    (0x908EA915, .fladd 35 10 41 5 1), (0x918EA916, .flset 35 10 41 5 2), (0x918C0280, .flsetCoreFlag 35 2),
    (0x928EA915, .flwait 35 10 41 5 1), (0x928C0280, .flwaitCoreFlag 35 2), (0x93013002, .drain 19 2)] = true := by
  decide +kernel

/-- Words of the units family, from the match and the fields of spec/opcode_table.json. -/
theorem test_decode_units : allRead [
    (0x94013005, .qpush 19 5), (0x958C0005, .qpop 35 5), (0x968C0005, .qpoll 35 5), (0x98000001, .gang 1),
    (0x99013000, .fork 19), (0x9A000005, .join 5), (0xA002AA95, .spawn 10 0x2A95), (0xA102AA95, .jdec 10 0x2A95),
    (0xA2000000, .commit), (0xA3000000, .unitDone), (0xA4000000, .yield), (0xA5013004, .cancel 19 4),
    (0xA68D3003, .ccnt 35 19 0 3)] = true := by
  decide +kernel

/-- Words of the engines family, from the match and the fields of spec/opcode_table.json. -/
theorem test_decode_engines : allRead [
    (0xA815303A, .tmpl 5 19 58), (0xA9CD3620, .wir 51 19 0 6 2), (0xAA153000, .wmov 5 19), (0xAB8C5000, .wget 35 5),
    (0xAC8C0040, .vlease 35 0x40), (0xAD000000, .vfree), (0xB0002A95, .axbegin 0x2A95), (0xB1000000, .axend),
    (0xB2013000, .axinv 19), (0xB38D3000, .axstat 35 19)] = true := by
  decide +kernel

/-- Words of the nodes family, from the match and the fields of spec/opcode_table.json. -/
theorem test_decode_nodes : allRead [
    (0xB4153940, .pfx 5 19 37 0), (0xB50C0005, .seal 3 5), (0xB6013005, .nlease 19 5), (0xB7000005, .nrefInc 5),
    (0xB700000D, .nrefDec 5), (0xB8293945, .nxl 10 19 37 5), (0xB98C0005, .nfetch 35 5), (0xBA0C0006, .nopen 3 6),
    (0xBB000005, .ndrop 5)] = true := by
  decide +kernel

/-- Words of the system family, from the match and the fields of spec/opcode_table.json. -/
theorem test_decode_system : allRead [
    (0xBC8C0319, .crr 35 0x319), (0xBD013135, .crw 19 0x135), (0xBE000F02, .trap 0xF02), (0xBE000FF0, .trapHarvestService),
    (0xBE000FF1, .trapPageAnswerService), (0xBF000000, .eret), (0xF362B00C, .patchWord 51 0 6 2 0xB00C)] = true := by
  decide +kernel
/-! ## Small states -/

/-- The instruction answers a next state of which p holds. -/
def after (i : Instr) (s : State) (p : State → Bool) : Bool := match exec i s with | .next t => p t | _ => false
/-- The instruction answers exactly the state t. -/
def leaves (i : Instr) (s t : State) : Bool := after i s (fun x => decide (x = t))

/-- The place of an access that passes its checks. -/
def placeOf (e : Except Stop Place) : Option Place := match e with | .ok a => some a | .error _ => none
/-- What an access that does not pass ends in. -/
def stopOf (e : Except Stop Place) : Option Stop := match e with | .ok _ => none | .error x => some x
def pageOf (e : Except Code Page) : Option Page := match e with | .ok g => some g | .error _ => none

/-- On a booted device, a unit of width 1 on cluster 0, at pc 0x80000000, with its page tables and job, in a partition whose handler lies at
0x80001000. -/
def s0 : State :=
  (State.placed { State.reset with mgmt := { State.reset.mgmt with bootStage := 3 } } 0).setPart 0
    { (State.placed State.reset 0).part 0 with handler := 0x80001001 }
/-- The instruction raises a fault, which goes to the handler. -/
def raised (i : Instr) (s : State) (code : Nat) (info : BitVec 64) : Bool :=
  after i s (fun t => t.cur.pc == 0x80001000 && t.cur.level == 1 && bits t.cur.cause 0 8 == code && t.cur.trapInfo == info)
def regs (s : State) (rs : List (Nat × BitVec 64)) : State :=
  s.setCur { s.cur with s := rs.foldl (fun (m : SMap (BitVec 64)) e => SMap.set 0 m e.1 e.2) s.cur.s }
/-- h1 is VALID with write intent over the 64 KiB from 0x90000000; h2 is PENDING. -/
def s1 : State :=
  (regs s0 [(1, 7), (2, 0xFFFFFFFFFFFFFFFE), (5, 8), (6, 0x1122334455667788)]).setCur
    { (regs s0 [(1, 7), (2, 0xFFFFFFFFFFFFFFFE), (5, 8), (6, 0x1122334455667788)]).cur with
      h := [(1, { state := .valid, va := 0x90000000, frame := 0x90000000, size := 65536, limit := 65536, perm := 15, wi := true }),
            (2, { state := .pending }), (3, { state := .fault 0x07, va := 0x40 }),
            (4, { state := .valid, va := 0x90010000, frame := 0x90010000, size := 65536, limit := 65536, perm := 15 })] }
/-- A byte range of memory given a value. -/
def poked (s : State) (pa n v : Nat) : State := s.poke pa n v

/-- Bytes written to the scratchpad of core 0, which holds nothing there yet. -/
def spadWith (s : State) (cells : List (Nat × Byte)) : State := s.spStore 0 (cells.filter (fun c => c.2 != 0))

theorem place_of {e : Except Stop Place} {a : Place} (h : placeOf e = some a) : e = .ok a := by
  cases e with
  | ok b => simpa [placeOf] using h
  | error x => simp [placeOf] at h

theorem loads_of_memory {s : State} {h : BitVec 4} {o : BitVec 64} {n : Nat} {a : Place} {bs : List Byte}
    (h1 : placeOf (s.access h o n false) = some a) (h2 : s.addPending a n = false) (h3 : a.spad = false) (hp : s.passes a = true)
    (h4 : s.objectFault (some s.coreNo) a.pa n false = none) (h5 : (s.chargeAt a n).fillFault a.pa n = (s.chargeAt a n, none))
    (h6 : bs = (s.chargeAt a n).bytes a.pa n) : s.Loads h o n a (s.chargeAt a n) bs := ⟨place_of h1, h2, hp, .inr ⟨h3, h4, h5, h6⟩⟩

theorem stores_of_memory {s : State} {h : BitVec 4} {o : BitVec 64} {n : Nat} {a : Place}
    (h1 : placeOf (s.access h o n true) = some a) (h2 : s.addPending a n = false) (hp : s.passes a = true)
    (h4 : s.objectFault (some s.coreNo) a.pa n true = none) (h5 : (s.chargeAt a n).writeFault a.pa n = (s.chargeAt a n, none)) :
    s.Stores h o n a := ⟨place_of h1, h2, hp, fun _ => ⟨h4, h5⟩⟩

/-- The bank issues alone and waits with the instruction, and nothing else holds it. -/
def isWaiting (s : State) (b : Nat) (i : Instr) : Bool :=
  (s.bank b).waits.map (·.instr) == some i && (s.bank b).width == 1 && s.activeBank (b / 2) == b && !s.parked b && !s.paused b &&
    (s.bank b).nextTrap == none
theorem waiting_of {s : State} {b : Nat} {i : Instr} (h : isWaiting s b i = true) : s.Waiting b i := by
  simp only [isWaiting, Bool.and_eq_true, beq_iff_eq, Bool.not_eq_true', Option.map_eq_some_iff] at h
  obtain ⟨⟨⟨⟨⟨hw, h1⟩, h2⟩, h3⟩, h4⟩, h5⟩ := h
  exact ⟨hw, h1, h2, h3, h4, h5⟩
/-- The bank in focus waits with the instruction since time 0. -/
def waitingWith (i : Instr) (s : State) : State := s.setCur { s.cur with waits := some { instr := i, since := 0 } }

/-! ## Fetching, registers, transfers -/

/-- ReservedWordRaisesIllegal: the word 0x3F000000 at pc, in a unit without a handler: the unit ends and its record holds code 0x01. -/
theorem test_reserved_word :
    let s := State.placed State.reset 0x3F000000
    s.cur.nextTrap = none ∧ (s.fetchWord s.ib s.cur.pc).1 = s ∧
      (match decode 0x3F000000 with | .error _ => true | .ok _ => false) = true ∧
      (match s.issueOne exec with
        | .next t => decide (t.cur.unit = none ∧ t.byte (s.regionBase 0 + 0x20000) = 0x01)
        | _ => false) = true := by
  decide +kernel

/-- StepRunsDecodedInstruction: ADDI s3, s0, 5 at pc. -/
theorem test_step_runs :
    let s := { State.placed State.reset 0x200C0005 with agenda := [.issue 0] }
    let s1 := { s with agenda := [], focus := 0 }
    s.powered = true ∧ s1.cur.unit = some programUnit ∧ s1.cur.width = 1 ∧ s1.paused s1.ib = false ∧ s1.parked s1.ib = false ∧
      s1.cur.nextTrap = none ∧
      (s1.walk 0 0 s1.cur.pc { user := true, exec := true }).1.readFault 0x80000000 4 =
        ((s1.walk 0 0 s1.cur.pc { user := true, exec := true }).1, none) ∧
      (match step s with | .next t => decide (t.reg 3 = 5 ∧ t.cur.pc = 0x80000004) | _ => false) = true := by
  decide +kernel

/-- NothingStops: without core power a boot and a claim move, and an issue, a step of a core or nothing do not. -/
theorem test_dark :
    let s := fun (l : List Agenda) => { s0 with powered := false, agenda := l }
    let goes : List Agenda → (State → Bool) → Bool := fun l p => match step (s l) with | .next t => p t && t.agenda.isEmpty | _ => false
    let rests := fun (t : State) => !t.powered && t.banks == s0.banks && t.mgmt == s0.mgmt && t.parts == s0.parts
    goes [] rests ∧ goes [.issue 0] rests ∧ goes [.drainStore 0 0] rests ∧ offCore (.mwaitTimeout 0) = false ∧ goes [.event (.mwaitTimeout 0)] rests ∧
      offCore (.claim .bmc) = true ∧ goes [.event (.claim .bmc)] (fun t => !t.powered && t.mgmt.owner == 3) ∧ goes [.event (.powerOn [])] (·.powered) := by
  decide +kernel

/-- IntegerRegisterForms: corners of the table of R136. -/
theorem test_integer_forms :
    s1.free [3, 1, 2] = true ∧
    after (.add 3 1 2) s1 (fun t => t.reg 3 == 5) ∧ after (.sub 3 1 2) s1 (fun t => t.reg 3 == 9) ∧
    after (.mulh 3 2 2 1) s1 (fun t => t.reg 3 == 0xFFFFFFFFFFFFFFFC) ∧ after (.mulh 3 2 1 2) s1 (fun t => t.reg 3 == 0xFFFFFFFFFFFFFFFF) ∧
    after (.div 3 2 0 0) s1 (fun t => t.reg 3 == 0xFFFFFFFFFFFFFFFF) ∧ after (.rem 3 2 0 1) s1 (fun t => t.reg 3 == 0xFFFFFFFFFFFFFFFE) ∧
    after (.div 3 1 2 0) s1 (fun t => t.reg 3 == 0xFFFFFFFFFFFFFFFD) ∧ after (.rem 3 1 2 0) s1 (fun t => t.reg 3 == 1) ∧
    after (.sar 3 2 1) s1 (fun t => t.reg 3 == 0xFFFFFFFFFFFFFFFF) ∧ after (.ror 3 1 0) s1 (fun t => t.reg 3 == 7) ∧
    after (.cmp 3 2 1 2) s1 (fun t => t.reg 3 == 1) ∧ after (.cmp 3 2 1 4) s1 (fun t => t.reg 3 == 0) ∧
    after (.clz 3 0) s1 (fun t => t.reg 3 == 64) ∧ after (.ctz 3 2) s1 (fun t => t.reg 3 == 1) ∧
    after (.popc 3 2) s1 (fun t => t.reg 3 == 63) ∧ after (.bfx 3 6 5 15) s1 (fun t => t.reg 3 == 0x6677) ∧
    after (.bfi 6 1 5 7) s1 (fun t => t.reg 6 == 0x1122334455660788) ∧ after (.add 0 1 2) s1 (fun t => t.reg 0 == 0) := by
  decide +kernel

/-- IntegerImmediateForms: signs and bounds of R137 and R138. -/
theorem test_immediate_forms :
    s1.free [3, 1] = true ∧ after (.addi 3 1 0xFFF) s1 (fun t => t.reg 3 == 6) ∧ after (.ori 3 0 0xFFF) s1 (fun t => t.reg 3 == 0xFFF) ∧
    after (.andi 3 2 0xFFE) s1 (fun t => t.reg 3 == 0xFFFFFFFFFFFFFFFE) ∧ after (.shli 3 1 63) s1 (fun t => t.reg 3 == 0x8000000000000000) ∧
    after (.cmpltui 3 1 0xFFF) s1 (fun t => t.reg 3 == 1) ∧ after (.cmplti 3 1 0xFFF) s1 (fun t => t.reg 3 == 0) ∧
    after (.li 3 0x20000) s1 (fun t => t.reg 3 == 0xFFFFFFFFFFFE0000) ∧ after (.lis 1 0x3FFFF) s1 (fun t => t.reg 1 == 0x1FFFFF) ∧
    after (.addpc 3 0x3FFFC) s1 (fun t => t.reg 3 == 0x7FFFFFFC) := by
  decide +kernel

/-- PassingJumpingAndWaiting: a register that is awaited. -/
theorem test_awaited_register :
    let s := s1.setCur { s1.cur with pend := [2] }
    integerOperands (.add 3 1 2) = some (3, [1, 2]) ∧ s.free [3, 1, 2] = false ∧
      leaves (.add 3 1 2) s (s.stalled s (.add 3 1 2) .earlier) = true ∧ after (.add 3 1 2) s (fun t => t.cur.waits.isSome && t.reg 3 == 0) := by
  decide +kernel

/-- EndTestAndPassing, LoopRunsItsCount: LOOP of 1 passes its body once, a count of 0 jumps past it, both levels may end at one word. -/
theorem test_loops :
    let s := regs s1 [(8, 1), (9, 3)]
    after (.loop 9 0 2) s (fun t => t.cur.pc == 0x80000004 && SMap.get 0 t.cur.lc 0 == 3 && (SMap.get {} t.cur.loops 0).armed) ∧
    after (.loop 0 1 2) s (fun t => t.cur.pc == 0x8000000C && !(SMap.get {} t.cur.loops 1).armed) ∧
    (let b : Bank := { pc := 0x108, lc := [(0, 2), (1, 1)], loops := [(0, { armed := true, start := 0x100, last := 0x108 }), (1, { armed := true, start := 0x104, last := 0x108 })] }
     (b.endTest 1 0x108).2 = false ∧ (b.loopEnd 0x108).pc = 0x100 ∧ SMap.get 0 (b.loopEnd 0x108).lc 0 = 1 ∧
       (SMap.get {} (b.loopEnd 0x108).loops 1).armed = false ∧ (b.endTest 1 0x10C) = (b, false)) := by
  decide +kernel

/-- LoopRunsItsCount at a count of 2. -/
theorem test_loop_count :
    let b : Bank := { lc := [(1, 2)], loops := [(1, { armed := true, start := 0x100, last := 0x108 })] }
    (SMap.get {} b.loops 1).armed = true ∧ (SMap.get {} b.loops 1).last = 0x108 ∧ SMap.get 0 b.lc 1 = 2 ∧
      (Nat.repeat (fun y : Bank => (y.endTest 1 0x108).1) 1 b).pc = 0x100 ∧
      SMap.get 0 (Nat.repeat (fun y : Bank => (y.endTest 1 0x108).1) 2 b).lc 1 = 0 ∧
      (SMap.get {} (Nat.repeat (fun y : Bank => (y.endTest 1 0x108).1) 2 b).loops 1).armed = false := by
  decide +kernel

/-- BranchesCompareAndGo: each branch taken and not taken; the offset is signed. -/
theorem test_branches :
    s1.free [1, 2] = true ∧ after (.blt 2 1 0xFFF) s1 (fun t => t.cur.pc == 0x7FFFFFFC) ∧ after (.bltu 2 1 0xFFF) s1 (fun t => t.cur.pc == 0x80000004) ∧
    after (.bge 1 2 3) s1 (fun t => t.cur.pc == 0x8000000C) ∧ after (.bgeu 1 2 3) s1 (fun t => t.cur.pc == 0x80000004) ∧
    after (.beq 1 1 2) s1 (fun t => t.cur.pc == 0x80000008) ∧ after (.bne 1 1 2) s1 (fun t => t.cur.pc == 0x80000004) := by
  decide +kernel

/-- JumpsLinkAndGo: the link of JAL, JR through its own link register, and a target that is no word. -/
theorem test_jumps :
    let s := regs s1 [(62, 0x80000101), (9, 0x80000100)]
    s.free [62, 9] = true ∧ after (.jmp 0xFFFFFF) s (fun t => t.cur.pc == 0x7FFFFFFC) ∧
    after (.jal 2) s (fun t => t.cur.pc == 0x80000008 && t.reg 62 == 0x80000004) ∧
    after (.jr 9 9 0xFFC) s (fun t => t.cur.pc == 0x800000FC && t.reg 9 == 0x80000004) ∧
    raised (.jr 9 62 0) s 0x08 0x80000101 := by
  decide +kernel

/-- QueueRegisters: the eighth and the ninth entry, the first and an empty queue. -/
theorem test_queue_registers :
    let q := fun (n : Nat) => s1.setCurCore { s1.curCore with q := [(3, (List.range n).map (BitVec.ofNat 64))] }
    (q 7).free [1] = true ∧ after (.qpush 1 3) (q 7) (fun t => (t.curCore.queueReg 3).length == 8 && (t.curCore.queueReg 3).getD 7 0 == 7) ∧
    leaves (.qpush 1 3) (q 8) ((q 8).stalled (q 8) (.qpush 1 3)) ∧
    after (.qpop 9 3) (q 2) (fun t => t.reg 9 == 0 && t.curCore.queueReg 3 == [1]) ∧
    leaves (.qpop 9 3) s1 (s1.stalled s1 (.qpop 9 3)) ∧ after (.qpoll 9 3) (q 8) (fun t => t.reg 9 == 8) := by
  decide +kernel

/-- Two clusters that run one unit of width 2. -/
def gang2 : State :=
  let u := fun (m : Nat) => { programUnit with width := 2, member := m, crec := { programUnit.crec with w0 := 0x80000001 } }
  { s0 with banks := [(0, { startBank (u 0) with s := [(9, 0x80000100)] }), (2, { startBank (u 1) with s := [(9, 0x80000200)] })] }

/-- GangsSplitForkAndJoin: the group splits to width 1, forks, waits at a bit, and re-forms. -/
theorem test_gangs :
    gang2.cur.width = 2 ∧ gang2.groupOf 0 = [0, 1] ∧
    after (.gang 0) gang2 (fun t => (t.bank 0).issueWidth == 1 && (t.bank 2).issueWidth == 1 && (t.bank 2).pc == 0x80000008) ∧
    leaves (.gang 1) gang2 (gang2.passed gang2) ∧ after (.gang 2) gang2 (fun t => t.note == .raised { code := 0x1D, info := 0x98000002 }) ∧
    after (.fork 9) gang2 (fun t => (t.bank 0).pc == 0x80000100 && (t.bank 2).pc == 0x80000200 && (t.bank 2).forked) ∧
    after (.join 3) gang2 (fun t => (t.bank 0).pc == 0x80000008) ∧
    (let s := (gang2.setBank 0 { gang2.bank 0 with forked := true, issueWidth := 1, joined := some 3, joinAt := 0x80000100 }).setBank 2
        { gang2.bank 2 with forked := true, issueWidth := 1, joined := some 3, joinAt := 0x80000300 }
     after (.joinReform 0 3) s (fun t => (t.bank 0).pc == 0x80000108 && (t.bank 2).pc == 0x80000108 && (t.bank 2).issueWidth == 2 && !(t.bank 0).forked)) ∧
    (let s := gang2.setBank 0 { gang2.bank 0 with forked := true, issueWidth := 1 }
     after (.fork 9) s (fun t => t.cur.pc == 0x80000100) ∧ after (.join 7) s (fun t => t.cur.joined == some 7)) := by
  decide +kernel

/-- GangsSplitForkAndJoin: member 1's target is no word, and a JOIN that finds member 1 at another one. -/
theorem test_gang_faults :
    (let s := gang2.setBank 2 { gang2.bank 2 with s := [(9, 0x80000201)] }
     after (.fork 9) s (fun t => t.note == .raised { code := 0x08, info := 0x80000201 })) ∧
    (let s := (gang2.setBank 0 { gang2.bank 0 with forked := true, issueWidth := 1 }).setBank 2
        { gang2.bank 2 with forked := true, issueWidth := 1, joined := some 4 }
     after (.join 3) s (fun t => bits t.cur.cause 0 8 == 0x1D && t.cur.trapInfo == wordInfo (.join 3) && t.cur.joined.isNone &&
       (t.bank 2).joined == some 4)) := by
  decide +kernel

/-! ## Memory and handles -/

/-- HandleChecksOfAnAccess: each check at its boundary. -/
theorem test_access_checks :
    stopOf (s1.access 2 0 8 false) = some .wait ∧
    stopOf (s1.access 5 0 8 false) = some (.trap { code := 0x04, info := 0 }) ∧
    stopOf (s1.access 3 8 8 false) = some (.trap { code := 0x07, info := 0x48, page := some 3 }) ∧
    stopOf (s1.access 1 4 8 false) = some (.trap { code := 0x08, info := 0x90000004 }) ∧
    stopOf (s1.access 1 65536 8 false) = some (.trap { code := 0x05, info := 0x90010000 }) ∧
    placeOf (s1.access 1 65528 8 true) = some { spad := false, va := 0x9000FFF8, pa := 0x9000FFF8 } ∧
    stopOf (s1.access 4 0 8 true) = some (.trap { code := 0x06, info := 0x90010000 }) ∧
    (placeOf (s1.access 4 0 8 false)).isSome = true ∧
    placeOf (s1.access 0 5767160 8 true) = some { spad := true, va := 5767160, pa := 5767160 } ∧
    stopOf (s1.access 0 5767168 1 true) = some (.trap { code := 0x05, info := 5767168 }) ∧
    raised (.ldd 9 5 1) s1 0x04 8 ∧ raised (.std 9 4 1) s1 0x06 0x90010008 ∧ after (.ldd 9 2 0) s1 (fun t => t.cur.waits.isSome) := by
  decide +kernel

/-- s1 with the bytes 80 01 02 03 04 05 06 F7 at 0x90000008. -/
def s2 : State := { s1 with mem := pokeCells s1.mem (cellsAt 0x90000008 (toBytes 8 0xF706050403020180)) }
def p2 : Place := { spad := false, va := 0x90000008, pa := 0x90000008 }

/-- LoadsExtendWhatTheyRead, AcquireLoadsAndReleaseStores: the access meets nothing. -/
theorem test_load_meets_nothing : s2.Loads 1 8 8 p2 (s2.chargeAt p2 8) (toBytes 8 0xF706050403020180) := by
  apply loads_of_memory <;> decide +kernel

/-- LoadsExtendWhatTheyRead: each size, signed and unsigned, a scratchpad byte, and a destination that is the index. -/
theorem test_loads :
    loadForm (.ldb 9 1 8) s2 = some (9, 1, 8, 1, true) ∧ s2.free (accessRegs (.ldx 5 1 5 1 2)) = true ∧
    after (.ldb 9 1 8) s2 (fun t => t.reg 9 == 0xFFFFFFFFFFFFFF80) ∧ after (.ldbu 9 1 8) s2 (fun t => t.reg 9 == 0x80) ∧
    after (.ldh 9 1 7) s2 (fun t => t.reg 9 == 0xFFFFFFFFFFFFF706) ∧ after (.ldhu 9 1 4) s2 (fun t => t.reg 9 == 0x0180) ∧
    after (.ldw 9 1 3) s2 (fun t => t.reg 9 == 0xFFFFFFFFF7060504) ∧ after (.ldwu 9 1 3) s2 (fun t => t.reg 9 == 0xF7060504) ∧
    after (.ldd 9 1 1) s2 (fun t => t.reg 9 == 0xF706050403020180) ∧ after (.ldx 5 1 5 1 2) s2 (fun t => t.reg 5 == 0x0000000003020180) ∧
    after (.ldd 0 1 1) s2 (fun t => t.reg 0 == 0 && t.cur.pc == 0x80000004) ∧ after (.ldd 9 0 1) s2 (fun t => t.reg 9 == 0) := by
  decide +kernel

/-- StoresWriteAndLeaveTheRest: the access meets nothing that stops it, with the reference tag of its word set. -/
theorem test_store_meets_nothing : ({ s2 with tags := [(0x12000001, true)], liveRegions := setTags s2.liveRegions true [0x900] } : State).Stores 1 12 4 { spad := false, va := 0x9000000C, pa := 0x9000000C } := by
  apply stores_of_memory <;> decide +kernel

/-- StoresWriteAndLeaveTheRest, StoredBytesReadBack: a store of 4 bytes clears the tag of its word; the other bytes stand. -/
theorem test_stores :
    let s := { s2 with tags := [(0x12000001, true), (0x12000002, true)], liveRegions := setTags s2.liveRegions true [0x900] }
    storeForm (.stw 6 1 3) s = some (1, 12, 4, 6) ∧ s.free (accessRegs (.stw 6 1 3)) = true ∧
    after (.stw 6 1 3) s (fun t => t.peek64 0x90000008 == 0x5566778803020180 && !t.tagAt 0x90000008 && t.tagAt 0x90000010) ∧
    after (.stx 6 1 5 0) s (fun t => t.peek64 0x90000008 == 0xF706050403020188) ∧
    after (.std 6 1 0) s (fun t => t.tagAt 0x90000008 && after (.ldd 9 1 0) t (fun y => y.reg 9 == 0x1122334455667788)) ∧
    after (.std 6 0 2) s (fun t => t.mem == s.mem && after (.ldd 9 0 2) t (fun y => y.reg 9 == 0x1122334455667788)) := by
  decide +kernel

/-- StoredBytesReadBack: a byte of the scratchpad at both ends of a bank. -/
theorem test_scratchpad_codeword :
    let c : Core := {}
    c.failed = [] ∧ ((c.writeCell 21 262143 255).syndromes 262143 []) = (0, 0) ∧ (c.writeCell 21 262143 255).readCell 21 262143 = (c.writeCell 21 262143 255, some 255) ∧
      (c.writeCell 1 5 2).cell 22 5 ≠ 0 ∧ (c.writeCell 1 5 2).cell 22 6 = 0 := by
  decide +kernel

/-- AcquireLoadsAndReleaseStores: the access is synchronised at package scope, and acts as the load and the store. -/
theorem test_acquire_and_release :
    s2.fencedHost p2 = false ∧ (s2.syncAccess s2.partNo s2.coreNo 3 p2.pa).2 = true ∧
    after (.ldacq 9 1 5 1 3 1) s2 (fun t => t.reg 9 == 0x180) ∧ after (.strel 6 1 5 3 0) s2 (fun t => t.byte 0x90000008 == 0x88) := by
  decide +kernel

/-- s1 with an object of 64 bytes, PUBLISHED, whose header at 0x90000100 is tagged, and a tagged reference to it at 0x90000020. -/
def s3 : State :=
  { s1 with
    mem := pokeAll s1.mem [(0x90000100, 0x4001F), (0x90000020, 0x90000100)]
    tags := [(0x12000004, true), (0x12000020, true)] }

/-- ReferencesKeepTheirTags: LDREF of a tagged and of an untagged word, STREF of null and of the reference, OBJINIT. -/
theorem test_references :
    let s := regs s3 [(8, 0x90000100), (9, 4)]
    after (.ldref 10 1 4) s (fun t => t.reg 10 == 0x90000100) ∧ raised (.ldref 10 1 6) s 0x0C 0x90000030 ∧
    after (.stref 0 1 4) s (fun t => t.peek64 0x90000020 == 0 && !t.tagAt 0x90000020) ∧
    after (.stref 8 1 5) s (fun t => t.peek64 0x90000028 == 0x90000100 && t.tagAt 0x90000028) ∧
    raised (.stref 5 1 5) s 0x0C 8 ∧
    after (.objinit 9 1 32) s (fun t => t.peek64 0x90000200 == 0x4000F && t.tagAt 0x90000200 && t.privateLine 0x1200004) := by
  decide +kernel

/-- HandlesAndTranslation: XLATE, the walk, the window's end, HINFO and HDROP. -/
theorem test_translation :
    let s := regs s1 [(8, 0x80001234)]
    after (.xlate 5 8 1) s (fun t => (t.cur.handle 5).state == .translating && (t.cur.handle 5).va == 0x80001234 &&
      after (.pageWalkComplete 0 5) t (fun y => (y.cur.handle 5).state == .translating && (y.cur.handle 5).result == some .valid &&
        leaves (.translationWindowEnd 0 5) { y with cycles := 31 } { y with cycles := 31 } &&
        after (.translationWindowEnd 0 5) { y with cycles := 32 } (fun z => (z.cur.handle 5).state == .valid && (z.cur.handle 5).limit == 0x80000000 - 0x1234)) &&
      after (.translationWindowEnd 0 5) { t with cycles := 32 } (fun y => (y.cur.handle 5).state == .pending &&
        after (.pageWalkComplete 0 5) y (fun z => (z.cur.handle 5).state == .valid && (z.cur.handle 5).frame == 0x80000000)) &&
      after (.hinfo 9 5 0) t (fun y => y.cur.waits.isSome)) ∧
    after (.hinfo 9 2 0) s (fun t => t.reg 9 == 2) ∧ after (.hinfo 9 3 0) s (fun t => t.reg 9 == 0x703) ∧
    after (.hinfo 9 1 0) s (fun t => t.reg 9 == 5) ∧ after (.hinfo 9 0 0) s (fun t => t.reg 9 == 5) ∧
    after (.hinfo 9 1 2) s (fun t => t.reg 9 == 65536) ∧
    after (.hdrop 1) s (fun t => (t.cur.handle 1).state == .invalid && (t.cur.handle 1).va == 0x90000000) ∧
    after (.xlate 5 1 0) s (fun t => after (.pageWalkComplete 0 5) t (fun y => (y.cur.handle 5).result == some (.fault 0x07))) := by
  decide +kernel

/-- EndTestAndPassing: LOOPM of a flag of 0 waits, of a set flag takes its count from the next word, of a count of 0 jumps past the body. -/
theorem test_loopm :
    let s := { s2 with mem := pokeAll s2.mem [(0x90000010, 3), (0x90000020, 1)] }
    after (.loopm 1 0 3 2) s (fun t => t.cur.waits.isSome) ∧
    after (.loopm 1 0 1 2) s (fun t => t.cur.pc == 0x80000004 && SMap.get 0 t.cur.lc 0 == 3 && SMap.get {} t.cur.loops 0 == { armed := true, start := 0x80000004, last := 0x80000008 }) ∧
    after (.loopm 1 1 4 2) s (fun t => t.cur.pc == 0x8000000C && !(SMap.get {} t.cur.loops 1).armed) := by
  decide +kernel

/-! ## Tag table, packets, synchronisation -/

/-- TagTableHoldsEachKeyOnce: a key moves to its new slot, the last slot, and slots out of range. -/
theorem test_tag_table :
    let s := regs (s1.setCurCore { s1.curCore with tagTable := [(7, some 0xABC)] }) [(8, 0xABC), (9, 4095), (10, 4096), (11, 7)]
    after (.stlk 12 8) s (fun t => t.reg 12 == 7) ∧ after (.stlk 12 9) s (fun t => t.reg 12 == 0xFFFFFFFFFFFFFFFF) ∧
    after (.stins 8 9) s (fun t => t.curCore.tagSlot 0xABC == some 4095 && (SMap.get none t.curCore.tagTable 7).isNone) ∧
    raised (.stins 8 10) s 0x05 4096 ∧ after (.stinv 11) s (fun t => (t.curCore.tagSlot 0xABC).isNone) ∧ raised (.stinv 10) s 0x05 4096 ∧
    SMap.wf none s.curCore.tagTable = true := by
  decide +kernel

/-- A read of the upper and the lowest byte, and a write, under way with tags 0 and 1. -/
def s4 : State :=
  match exec (.pkrd 9 1 5 0x81) s2 with
  | .next t => (match exec (.pkwr 6 1 5 0x0F) t with | .next u => u | _ => t)
  | _ => s2

/-- PacketsReadAndWriteAtTheHome: tags, the read's bytes, a write that waits for the read before it, PKWT, PERM and the ninth packet. -/
theorem test_packets :
    (s2.cluster 0).freeTag = some 0 ∧ (placeOf (s2.access 1 (s2.reg 5) 8 true)).isSome = true ∧ s4.cur.pend = [9] ∧ (s4.cluster 0).freeTag = some 2 ∧
    after (.packetReply 0 0) s4 (fun t => t.reg 9 == 0xF700000000000080 && t.cur.pend == [] && (t.cluster 0).freeTag == some 0 &&
      after (.packetHomeWrite 0 1) t (fun u => u.peek64 0x90000008 == 0xF706050455667788 && after .pkwt u (fun v => v.cur.pc == 0x8000000C))) ∧
    after .pkwt s4 (fun t => t.cur.waits.isSome) ∧ raised (.pkwr 6 0 5 0xFF) s2 0x06 8 ∧ raised (.pkrd 6 0 5 0xFF) s2 0x06 8 ∧
    (let full := s2.setCluster 0 { packets := (List.range 8).map (fun k => (k, (s4.packet 0 0))) }
     after (.pkwr 6 1 5 1) full (fun t => t.cur.waits.isSome) ∧ after (.pkrd 9 1 5 1) full (fun t => t.cur.waits.isSome)) ∧
    (let s := { s4 with records := [{ header := 0, owner := 9, sealed := false, lines := [(0x1200000, 1)] }] }
     after (.packetReply 0 0) s (fun t => after (.packetHomeWrite 0 1) t (fun u => u.cur.traps.any (fun x => x.ptag == some 1 && x.deferred)))) := by
  decide +kernel

/-- AtomicsReadModifyWrite, AtomicsAreFramed: 4 and 8 bytes, signed comparison, and a compare that fails. -/
theorem test_atomics :
    let s := regs s2 [(5, 8), (8, 1), (9, 0x55), (10, 0xF706050403020180), (12, 0x03020180), (13, 0x77)]
    s.free [8, 5] = true ∧ s.ingressOpen s.partNo 0x90000008 = true ∧
    after (.aadd 8 1 5 1 3 0) s (fun t => t.reg 8 == 0xF706050403020180 && t.peek64 0x90000008 == 0xF706050403020181) ∧
    after (.aadd 8 1 5 0 3 3) s (fun t => t.reg 8 == 0x03020180 && t.peek64 0x90000008 == 0xF706050403020181) ∧
    after (.amin 8 1 5 1 3 0) s (fun t => t.peek64 0x90000008 == 0xF706050403020180) ∧
    after (.amax 8 1 5 1 3 0) s (fun t => t.peek64 0x90000008 == 1) ∧ after (.aswp 9 1 5 0 3 0) s (fun t => t.peek64 0x90000008 == 0xF706050400000055) ∧
    after (.aand 9 1 5 0 3 0) s (fun t => t.peek 0x90000008 4 == 0) ∧ after (.aor 9 1 5 0 3 0) s (fun t => t.peek 0x90000008 4 == 0x030201D5) ∧
    after (.axor 9 1 5 0 3 0) s (fun t => t.peek 0x90000008 4 == 0x030201D5) ∧
    after (.acas 12 1 5 0 3 3) s (fun t => t.peek 0x90000008 4 == 0x77 && t.reg 12 == 0x03020180) ∧
    after (.acas 8 1 5 0 3 2) s (fun t => t.peek 0x90000008 4 == 0x03020180 && t.reg 8 == 0x03020180) := by
  decide +kernel

/-- AtomicsReadModifyWrite: the access meets nothing. -/
theorem test_atomic_meets_nothing :
    s2.Atomically 1 8 8 0 p2 (s2.charge s2.partNo p2.pa 8) (toBytes 8 0xF706050403020180) ∧
      (s2.charge s2.partNo p2.pa 8).Ordered p2 0 3 (s2.charge s2.partNo p2.pa 8) := by
  refine ⟨⟨by decide, s2.charge s2.partNo p2.pa 8, ⟨place_of (by decide +kernel), by decide +kernel, ?_⟩,
    fun _ => ⟨by decide +kernel, by decide +kernel⟩, .inr ⟨by decide, by decide +kernel, by decide +kernel, by decide +kernel⟩⟩,
    by simp [State.Ordered]⟩
  rw [if_neg (by decide)]
  exact ⟨by decide, by decide +kernel, by decide +kernel, by decide +kernel, rfl⟩

/-- FencesWaitForWhatIsOutgoing: nothing outgoing, a packet outgoing, an operation queued. -/
theorem test_fences :
    (s2.cluster 0).outstanding = [] ∧ after (.fenceFull 3) s2 (fun t => t.cur.pc == 0x80000004) ∧ after (.fenceEngine 0) s2 (fun t => t.cur.pc == 0x80000004) ∧
    after (.fenceSs 3) s4 (fun t => t.cur.waits.isSome) ∧ after (.fenceLl 3) s4 (fun t => t.cur.waits.isSome) ∧
    (let s := s2.setCluster 0 { qC := [{ tmpl := 0, tok := 0, seq := 0, word := 0 }] }
     after (.fenceEngine 0) s (fun t => t.cur.waits.isSome) ∧ after (.fenceLl 0) s (fun t => t.cur.pc == 0x80000004)) := by
  decide +kernel

/-- MonitorAndMwait: arming, a store to the line and one beside it, the time of 1 µs, and nothing armed. -/
theorem test_monitor :
    let m := fun (hit : Bool) (now : BitVec 64) => regs { (s2.setCur { s2.cur with monitor := some { line := 0x1200000, hit := hit }, waits := some { instr := .mwait 9 8, since := 0 } }) with now := now } [(8, 1)]
    after (.monitor 1 1) s2 (fun t => t.cur.monitor == some { line := 0x1200000, hit := false }) ∧
    after (.monitor 0 16) s2 (fun t => t.cur.monitor == some { line := 2 ^ 50 + 1, hit := false }) ∧
    (((m false 0).store [(0x9000007F, 1)]).bank 0).monitor = some { line := 0x1200000, hit := true } ∧
    (((m false 0).store [(0x90000080, 1)]).bank 0).monitor = some { line := 0x1200000, hit := false } ∧
    after (.mwait 9 8) (m true 0) (fun t => t.reg 9 == 0 && t.cur.monitor.isNone && t.cur.pc == 0x80000004) ∧
    after (.mwait 9 8) (m false 1000) (fun t => t.reg 9 == 1) ∧ after (.mwait 9 8) (m false 999) (fun t => t.cur.waits.isSome) ∧
    after (.mwait 9 8) s2 (fun t => t.reg 9 == 2) ∧
    after (.mwaitWake 0) (m true 0) (fun t => t.reg 9 == 0 && t.cur.pc == 0x80000004) ∧ leaves (.mwaitWake 0) (m false 0) (m false 0) ∧
    after (.mwaitTimeout 0) (m false 1000) (fun t => t.reg 9 == 1) := by
  decide +kernel

/-- s1 with a ring control word at h0 offset 32: base 0x100, depth 2, entries of 64 bytes, head 3, tail 4, claimed 5. -/
def ring (head tail claimed : Nat) : State :=
  spadWith s1 (cellsAt 32 (toBytes 4 0x100 ++ toBytes 4 2 ++ toBytes 8 64 ++ toBytes 4 head ++ toBytes 4 tail ++ toBytes 4 claimed ++ toBytes 4 0))

/-- RingsHandOutSlotsInOrder: a full and a free ring, a ticket in turn, ahead and out of range, an empty ring, and the wakes. -/
theorem test_rings :
    (Ring.of (toBytes 4 0x100 ++ toBytes 4 2 ++ toBytes 8 64 ++ toBytes 4 3 ++ toBytes 4 4 ++ toBytes 4 5 ++ toBytes 4 0)).ok = true ∧
    after (.rwfree 8 0 1) (ring 4 4 5) (fun t => t.reg 8 == 0x500000140 && t.curCore.spPeek 56 1 == 6) ∧
    after (.rpost 8 0 1) (regs (ring 3 4 5) [(8, 0x400000100)]) (fun t => t.curCore.spPeek 52 1 == 5) ∧
    raised (.rpost 8 0 1) (regs (ring 3 4 5) [(8, 0x500000100)]) 0x11 32 ∧
    after (.rwfill 8 0 1) (ring 3 4 5) (fun t => t.reg 8 == 0x300000140) ∧ after (.rwfill 8 0 1) (ring 4 4 5) (fun t => t.cur.waits.isSome) ∧
    after (.rfree 8 0 1) (regs (ring 3 4 5) [(8, 0x300000100)]) (fun t => t.curCore.spPeek 48 1 == 4) ∧
    raised (.rwfree 8 0 2) (ring 3 4 5) 0x11 64 ∧ raised (.rwfree 8 1 1) s1 0x06 0x90000020 ∧
    (let s := (ring 4 4 5).setCur { (ring 4 4 5).cur with waits := some { instr := .rwfree 8 0 1, since := 0 } }
     after (.ringWaitWake 0) s (fun t => t.reg 8 == 0x500000140)) := by
  decide +kernel

/-- The wakes of MonitorAndMwait, FlagsSetAddAndWait, EndTestAndPassing, QueueRegisters and RingsHandOutSlotsInOrder: a bank that waits
with each instruction, whose wait is over. -/
theorem test_wakes :
    let woken := fun (wake i : Instr) (s : State) (p : State → Bool) => isWaiting (waitingWith i s) 0 i && after wake (waitingWith i s) (fun t => t.cur.pc != s0.cur.pc && p t)
    let s := regs (s2.setCurCore { s2.curCore with flags := [(3, true)], q := [(1, [7])] }) [(5, 8), (8, 1), (9, 1)]
    woken (.mwaitWake 0) (.mwait 9 8) (s.setCur { s.cur with monitor := some { line := 0x1200000, hit := true } }) (fun t => t.reg 9 == 0) ∧
    woken (.mwaitTimeout 0) (.mwait 9 8) { s.setCur { s.cur with monitor := some { line := 0x1200000, hit := false } } with now := 1000 } (fun t => t.reg 9 == 1) ∧
    woken (.flwaitWake 0) (.flwait 8 1 5 3 0) s (fun _ => true) ∧ woken (.flwaitWake 0) (.flwaitCoreFlag 8 3) s (fun _ => true) ∧
    woken (.loopmFlagWake 0) (.loopm 1 0 1 2) { s2 with mem := pokeAll s2.mem [(0x90000010, 3)] } (fun t => SMap.get 0 t.cur.lc 0 == 3) ∧
    woken (.queueRegisterWake 0) (.qpush 8 1) s (fun t => t.curCore.queueReg 1 == [7, 1]) ∧
    woken (.queueRegisterWake 0) (.qpop 9 1) s (fun t => t.reg 9 == 7) ∧
    woken (.ringWaitWake 0) (.rwfree 8 0 1) (ring 4 4 5) (fun t => t.reg 8 == 0x500000140) := by
  decide +kernel

/-- ReferencesKeepTheirTags, MonitorAndMwait: with the Crocks full an OBJINIT and a first MONITOR at a home wait; a monitor at a home makes
room for the next, and h0 needs none. -/
theorem test_full_crocks :
    let s := { regs s3 [(9, 4)] with crockFull := [(s3.crockOf 0x90000000 * 16, true)] }
    after (.objinit 9 1 32) s (fun t => t.cur.waits.isSome && !t.tagAt 0x90000200) ∧ after (.monitor 1 1) s (fun t => t.cur.waits.isSome && t.cur.monitor.isNone) ∧
    after (.monitor 1 1) (s.setCur { s.cur with monitor := some { line := 0x1200001, hit := false } }) (fun t => t.cur.monitor == some { line := 0x1200000, hit := false }) ∧
    after (.monitor 0 1) s (fun t => t.cur.monitor.isSome) := by
  decide +kernel

/-! ## Flags, drains, units -/

/-- FlagsSetAddAndWait: an add posted and performed, one through h0, a set, the boundary of a wait, and core flag 63. -/
theorem test_flags :
    let s := regs s2 [(5, 8), (8, 1), (9, 0xF706050403020180), (10, 0xF706050403020181)]
    after (.fladd 8 1 5 3 0) s (fun t => t.cur.fladds.length == 1 && t.peek64 0x90000008 == 0xF706050403020180 &&
      after (.fladdPerform 0) t (fun u => u.cur.fladds.isEmpty && u.peek64 0x90000008 == 0xF706050403020181)) ∧
    after (.fladd 9 0 5 3 0) s (fun t => t.curCore.spPeek 8 8 == 0xF706050403020180 &&
      after (.fladd 9 0 5 3 0) t (fun u => u.curCore.spPeek 8 8 == 0xEE0C0A0806040300)) ∧
    after (.flset 8 1 5 3 2) s (fun t => t.peek64 0x90000008 == 1) ∧
    after (.flwait 9 1 5 3 1) s (fun t => t.cur.pc == 0x80000004) ∧ after (.flwait 10 1 5 3 1) s (fun t => t.cur.waits.isSome) ∧
    after (.flsetCoreFlag 8 63) s (fun t => t.curCore.flag 63 && after (.flwaitCoreFlag 8 63) t (fun u => u.cur.pc == 0x80000008)) ∧
    after (.flwaitCoreFlag 8 63) s (fun t => t.cur.waits.isSome) := by
  decide +kernel

/-- FlagsSetAddAndWait, QueueRegisters, AcquireLoadsAndReleaseStores: a posted add holds up releases, an error of its Crock makes it fail, and
a FLWAIT meets a value that another write has taken away again, but not one below it. -/
theorem test_posted_adds :
    let s := regs s2 [(5, 8), (8, 1), (9, 16), (10, 0xF706050403020181)]
    let put := fun (v : Nat) (t : State) => t.store (cellsAt 0x90000008 (toBytes 8 v))
    after (.fladd 8 1 5 3 0) s (fun t => t.cur.fladds != [] && after (.strel 8 1 9 3 3) t (fun u => u.cur.waits.isSome) &&
      after (.flset 8 1 9 3 2) t (fun u => u.cur.waits.isSome) && after (.qpush 8 3) t (fun u => u.cur.waits.isSome) &&
      after (.fladdPerform 0) { t with badCrock := [(0x90000008 / 8, true)] } (fun u => u.cur.traps.map (fun x => (x.code, x.info)) == [(0x19, 0x90000008)])) ∧
    after (.flwait 10 1 5 3 1) s (fun t => isWaiting t 0 (.flwait 10 1 5 3 1) && t.watched (.flwait 10 1 5 3 1) 0x12000001 0xF706050403020181 == some false &&
      after (.flwaitWake 0) (put 0 (put 0xF706050403020181 t)) (fun u => u.cur.pc == 0x80000004 && u.cur.waits.isNone) &&
      after (.flwaitWake 0) (put 5 t) (fun u => u.cur.waits.isSome)) := by
  decide +kernel

/-- DrainsCountEarlierWork: a masked level that waits, one that does not, the issuing unit, a record enqueued later, and a drain that is pending. -/
theorem test_drains :
    let w : Waiting := { crec := { w2 := 0xFFFF000300000000 }, s1 := 0, s2 := 1, asid := 0, enqTime := 0, order := 4 }
    let s := fun (next : Nat) => (regs s0 [(8, 8), (9, 4), (10, 1)]).setPart 0 { s0.part 0 with waiting := [w], nextOrder := next }
    after (.drain 8 5) (s 5) (fun t => (SMap.get none t.curCore.drains 5).isSome && after (.drainComplete 0 5) t (fun u => !u.curCore.flag 5) &&
      raised (.drain 8 5) t 0x11 5) ∧
    after (.drain 8 5) (s 4) (fun t => after (.drainComplete 0 5) t (fun u => u.curCore.flag 5 && (SMap.get none u.curCore.drains 5).isNone)) ∧
    after (.drain 9 5) (s 5) (fun t => after (.drainComplete 0 5) t (fun u => u.curCore.flag 5)) ∧
    after (.drain 10 5) (s 5) (fun t => after (.drainComplete 0 5) t (fun u => u.curCore.flag 5)) := by
  decide +kernel

/-- PubPublishesBeforeItStores: null, low bits, and an object that is PRIVATE to the core and is PUBLISHED before it is stored. -/
theorem test_pub :
    let s := { regs s2 [(5, 8), (8, 0x90000200), (9, 4), (10, 0x90000208)] with tags := [(0x12000001, true)] }
    let a : Place := { spad := false, va := 0x90000008, pa := 0x90000008 }
    placeOf (s.access 1 (s.reg 5) 8 true) = some a ∧ s.addPending a 8 = false ∧ (s.syncAccess s.partNo s.coreNo 3 a.pa).2 = true ∧
    after (.pub 0 1 5 3) s (fun t => t.peek64 0x90000008 == 0 && !t.tagAt 0x90000008) ∧ raised (.pub 10 1 5 3) s 0x0C 0x90000208 ∧
    after (.objinit 9 1 32) s (fun t => after (.pub 8 1 5 3) t (fun u =>
      u.peek64 0x90000008 == 0x90000200 && u.tagAt 0x90000008 && bits (u.peek64 0x90000200) 4 2 == 1 && !u.privateLine 0x1200004)) := by
  decide +kernel

/-- s1 with a record at h1 offset 64: code 0x80000000, level 2, the join word given, launch 0 of job 0. -/
def withRecord (join : Nat) : State :=
  { s1 with mem := pokeAll s1.mem [(0x90000040, 0x80000000), (0x90000050, 0xFFFF000200000000 + join)] }

/-- SpawnAndJdecCreateUnits: a unit enqueued and started at once on the free cluster 1, a bad width, an address that is no multiple of 32, and joins at 0, 1 and 2. -/
theorem test_spawn :
    after (.spawn 1 2) (withRecord 0) (fun t => (t.bank 2).unit.map (·.crec.w0) == some 0x80000000 && (t.bank 2).reg 2 == 1 && (t.part 0).waiting.isEmpty &&
      t.cur.spawnNext == 1 && (match t.cur.unit with | some u => u.committed | none => false) &&
      (t.counter 0 programJob .launch 0).outstanding == 2 && t.cur.pc == 0x80000004) ∧
    raised (.spawn 1 2) { withRecord 0 with mem := pokeAll s1.mem [(0x90000040, 0x80000003)] } 0x11 0x90000040 ∧
    raised (.spawn 6 2) s1 0x04 0x40 ∧
    raised (.spawn 1 2) (s1.setCur { s1.cur with h := [(1, { state := .valid, va := 0x90000008, frame := 0x90000008, size := 65536, limit := 65528, perm := 15, wi := true })] }) 0x08 0x90000048 ∧
    after (.jdec 1 2) (withRecord 2) (fun t => t.peek 0x90000050 4 == 1 && (t.bank 2).unit.isNone && (match t.cur.unit with | some u => u.committed | none => false)) ∧
    after (.jdec 1 2) (withRecord 1) (fun t => t.peek 0x90000050 4 == 0 && (t.bank 2).unit.isSome) ∧
    after (.jdec 1 2) (withRecord 0) (fun t => t.cur.level == 1 && bits t.cur.cause 0 8 == 0x11 && t.peek 0x90000050 4 == 0) := by
  decide +kernel

/-- s with a copy in queue L that can start, or, with the token bit, one that never can. -/
def queuedOp (s : State) (tok : BitVec 4) : State := s.setCluster 0 { s.cluster 0 with qL := [{ tmpl := 0x400, tok := tok, seq := 1, word := 0 }] }

/-- UnitsCommitYieldEndAndCancel: COMMIT, YIELD with a better record, with a copy under way and without a record, DONE with nothing and with a packet on its way, CANCEL and CCNT of named and unnamed entries. -/
theorem test_unit_ends :
    let w : Waiting := { crec := { w2 := 0xFFFF000000000000 }, s1 := 5, s2 := 1, asid := 0, enqTime := 0, order := 4 }
    let s := (regs s0 [(9, 1), (10, 256)]).setPart 0 { s0.part 0 with waiting := [w], nextOrder := 5 }
    after .commit s0 (fun t => (match t.cur.unit with | some u => u.committed && u.budget == 100000 | none => false)) ∧
    after .yield s0 (fun t => t.cur.pc == 0x80000004) ∧
    after .yield s (fun t => t.cur.unit.isNone && (t.part 0).waiting.length == 2 && ((t.part 0).waiting.getD 1 w).order == 5) ∧
    s0.joined 0 programUnit = true ∧ (queuedOp s 0).joined 0 programUnit = false ∧
    after .yield (queuedOp s 0) (fun t => t.cur.ending == some .yielded && (t.cluster 0).qL.length == 1) ∧
    after .yield (queuedOp s 4) (fun t => t.cur.unit.isNone && (t.cluster 0).qL.isEmpty) ∧
    s0.unitQuiet programUnit 0 = true ∧ after .unitDone s0 (fun t => t.cur.unit.isNone && (t.job 0 0).isNone) ∧
    after .unitDone s4 (fun t => t.cur.waits.isSome) ∧ after .commit gang2 (fun t => t.note == .none) ∧
    after .unitDone (gang2.setCur { gang2.cur with issueWidth := 1, forked := true }) (fun t => bits t.cur.cause 0 8 == 0x1D) ∧
    (s0.namedEntry programUnit 1 0).isSome = true ∧ after (.cancel 0 1) s0 (fun t => (t.counter 0 programJob .launch 0).state == 3 && (match t.cur.unit with | some u => u.committed | none => false)) ∧
    raised (.cancel 9 1) s 0x11 1 ∧ raised (.cancel 10 3) s 0x11 256 ∧ raised (.ccnt 8 9 0 2) s 0x11 1 ∧
    after (.ccnt 8 0 0 1) s (fun t => t.reg 8 == 1) ∧ after (.ccnt 8 0 1 3) s (fun t => t.reg 8 == 0) ∧ after (.ccnt 8 0 0 0) s (fun t => t.reg 8 == 1) := by
  decide +kernel

/-- RetirementCascades: with another launch outstanding the graph stays open; without, the job completes. -/
theorem test_retirement :
    let s := s0.setCounter 0 programJob .graph 0 { s0.counter 0 programJob .graph 0 with outstanding := 2 }
    (s.retireRecord 0 programUnit.crec 0).counter 0 programJob .graph 0 = { s.counter 0 programJob .graph 0 with outstanding := 1, retired := 1 } ∧
    ((s.retireRecord 0 programUnit.crec 0).counter 0 programJob .launch 0).state = 0 ∧ ((s.retireRecord 0 programUnit.crec 0).job 0 0).isSome = true ∧
    ((s0.retireRecord 0 programUnit.crec 0).job 0 0).isNone = true ∧ (s0.retireRecord 0 programUnit.crec 0).peek64 (s0.regionBase 0 + 0x40000) = 1 := by
  decide +kernel

/-- PlacementDiscardsAndTimers: a start on core 1, a victim and a cancelled unit, at rest and with a copy to start, the first µs of a budget, the watchdog at and before its time, and a trap that pends. -/
theorem test_placement :
    let w : Waiting := { crec := { w0 := 0x80000000, w2 := 0xFFFF000000000000 }, s1 := 5, s2 := 6, asid := 0, enqTime := 0, order := 4 }
    let s := s0.setPart 0 { s0.part 0 with waiting := [w], nextOrder := 5 }
    let at1 := fun (u : WorkUnit) (now : BitVec 64) => { (s0.setCur { s0.cur with unit := some u, waits := some { instr := .pkwt, since := 0 } }).setPart 0 { s0.part 0 with stall := 1 } with now := now }
    s.partOfCore 1 = some 0 ∧ s.freeGroup 1 1 = some 0 ∧ s.affinityBlocks 0 w 1 = false ∧
    after (.place 1) s (fun t => (t.part 0).waiting.isEmpty && (t.bank 8).pc == 0x80000000 && (t.bank 8).reg 1 == 5 && (t.bank 8).reg 2 == 6 && (t.bank 8).reg 4 == 1) ∧
    leaves (.place 1) s0 s0 ∧
    after (.victimDiscard 0) (at1 { programUnit with victim := true } 0) (fun t => t.cur.unit.isNone && (t.part 0).schedPreempts == 1 && ((t.part 0).waiting.map (·.headmark)) == [true]) ∧
    after (.victimDiscard 0) (at1 programUnit 0) (fun t => t.cur.unit.isSome) ∧
    after (.cancelDiscard 0) (at1 { programUnit with cancelled := true } 0) (fun t => t.cur.unit.isNone && (t.job 0 0).isNone) ∧
    after (.victimDiscard 0) (queuedOp (at1 { programUnit with victim := true } 0) 0) (fun t => t.cur.ending == some .victim && t.cur.waits.isNone) ∧
    after (.cancelDiscard 0) (queuedOp (at1 { programUnit with cancelled := true } 0) 0) (fun t => t.cur.ending == some .cancelled && t.parked 0) ∧
    after (.commitBudget 0) (at1 { programUnit with committed := true, budget := 1 } 1000) (fun t => t.cur.traps.map (fun x => (x.code, x.info)) == [(0x1C, 1)]) ∧
    after (.commitBudget 0) (at1 { programUnit with committed := true, budget := 1 } 999) (fun t => t.cur.traps.isEmpty) ∧
    after (.watchdog 0) (at1 programUnit 1000) (fun t => t.cur.traps.map (fun x => (x.code, x.info)) == [(0x20, 1)]) ∧
    after (.watchdog 0) (at1 programUnit 999) (fun t => t.cur.traps.isEmpty) ∧
    after (.takePendingTrap 0) (s0.setCur { s0.cur with traps := [{ code := 0x20, deferred := true }] }) (fun t => bits t.cur.cause 0 8 == 0x20 && t.cur.traps.isEmpty) := by
  decide +kernel

/-! ## Control registers, traps, wide operations -/

/-- s at a level. -/
def atLevel (s : State) (l : BitVec 2) : State := s.setCur { s.cur with level := l }

/-- ControlRegistersNeedTheirLevel, ControlRegistersReadBack: each level at its boundary, masks, and a register that a queued operation holds up. -/
theorem test_control_registers :
    let s := regs s0 [(8, 0xFFFFFFFFFFFFFFFF)]
    raised (.crw 8 0x300) s 0x02 0xBD008300 ∧ raised (.crr 9 0x003) s 0x02 0xBC240003 ∧
    (after (.crr 9 0x800) (atLevel s 1) (fun t => t.cur.unit.isNone)) ∧
    after (.crw 8 0x300) (atLevel s 1) (fun t => t.crValue 0x300 == 0xFFFFFF && after (.crr 9 0x300) t (fun u => u.reg 9 == 0xFFFFFF)) ∧
    after (.crw 8 0x00C) s (fun t => t.crValue 0x00C == 0x3F) ∧ after (.crw 8 0x010) s (fun t => t.crValue 0x010 == s.crValue 0x010) ∧
    after (.crr 9 0x005) s (fun t => t.cur.pc == 0x80000004) ∧
    (let q := s.setCluster 0 { qC := [{ tmpl := 0, tok := 0, seq := 0, word := 0 }] }
     after (.crr 9 0x00C) q (fun t => t.cur.waits.isSome) ∧ after (.crr 9 0x00D) q (fun t => t.cur.pc == 0x80000004)) ∧
    (s.crSet 0x10F 0xFFFFFFFFFFFFFFFF).crValue 0x10F = 0xF7FFFF ∧ (s.crSet 0x120 0xFF).crValue 0x120 = 0xF7 ∧
    (s.crSet 0x263 5).crValue 0x263 = 5 ∧ (s.crSet 0x320 0x80002001).crValue 0x320 = 0x80002001 ∧ s.crSet 0x4FF 1 = s := by
  decide +kernel

/-- TrapDelivery: a precise fault, a deferred one of a packet, and TRAP; a FAIL outlives a deferred trap, and its own PAGE ends it (R411). -/
theorem test_trap_delivery :
    let go := fun (t : Trap) => (s1.takeTrap 0 t).cur
    s0.cur.level = 0 ∧ (s0.part 0).handler = 0x80001001 ∧
    (go { code := 0x05, info := 0x77 }).cause = 0x05 ∧ (go { code := 0x05, info := 0x77 }).trapPc = 0x80000000 ∧
    (go { code := 0x05, info := 0x77 }).trapInfo = 0x77 ∧ (go { code := 0x05 }).pc = 0x80001000 ∧ (go { code := 0x05 }).level = 1 ∧
    (go { code := 0x19, deferred := true, seq := 7, queue := 2, ptag := some 3, wide := true }).cause = 0x70001C519 ∧
    (go { code := 0x03, tcode := 0xABC }).cause = 0xABC00003 ∧ (go { code := 0x03, tcode := 0xABC }).trapPc = 0x80000004 ∧ (go { code := 0x03 }).s = s1.cur.s ∧
    (let b := { s1.cur with page := some { ids := [], since := 0, handle := 3, pc := 0x80000000, failed := true, resumed := true } }
     (b.keepFail { code := 0x07 }).isNone ∧ (b.keepFail { code := 0x19, deferred := true }).isSome ∧ b.donePage.isNone) := by
  decide +kernel

/-- TrapCodesAndServices: the last code of a program, the services at level 0 and level 1. -/
theorem test_trap_codes :
    let s := regs (atLevel s0 1) [(1, 5)]
    after (.trap 0xEFF) s0 (fun t => t.cur.level == 1 && t.cur.cause == 0xEFF00003) ∧ raised (.trap 0xF00) s0 0x02 0xBE000F00 ∧
    raised .trapHarvestService s0 0x02 0xBE000FF0 ∧ raised .trapPageAnswerService s0 0x02 0xBE000FF1 ∧
    after (.trap 0xFF2) s (fun t => t.reg 1 == 0xFFFFFFFFFFFFFFFF && t.cur.pc == 0x80000004) ∧
    after .trapPageAnswerService s (fun t => t.reg 1 == 0 && t.cur.pc == 0x80000004) := by
  decide +kernel

/-- TrapCodesAndServices: a harvest of job 0's own address space begins at once. -/
theorem test_harvest_service :
    let s := regs (atLevel s0 1) [(1, 0)]
    s.asidValid 0 (harvestAsid (s.reg 1)) = (s, true) ∧ s.mgmt.harvest.getLsbD 0 = false ∧ s.accessesRun 0 (harvestAsid (s.reg 1)) = false ∧
    after .trapHarvestService s (fun t => t.reg 1 == t.mgmt.harvest && !t.mgmt.harvest.getLsbD 0 && t.cur.pc == 0x80000004) := by
  decide +kernel

/-- ReturnFromTheHandler: at level 0, with nothing in force, after a fault, and with flush set. -/
theorem test_eret :
    let s := match exec (.ldd 9 5 0) s1 with | .next t => t | _ => s1
    let q := fun (cause : BitVec 64) => (s.setCur { s.cur with cause := cause, tokCS := 3 }).setCluster 0
      { qC := [{ tmpl := 0, tok := 0, seq := 1, word := 0, phase := .executed [] }, { tmpl := 0, tok := 0, seq := 2, word := 0 }], haltC := true }
    raised .eret s0 0x02 0xBF000000 ∧ s.cur.level = 1 ∧ programUnit.clusters.contains s.focus = true ∧
    after .eret (s.setCur { s.cur with cause := 0 }) (fun t => t.cur.unit.isNone) ∧
    after .eret s (fun t => t.cur.level == 0 && t.cur.pc == 0x80000000 && t.cur.cause == 0 && t.cur.trapPc == 0x80000000) ∧
    after .eret (q 0x104) (fun t => (t.cluster 0).qC.length == 2 && !(t.cluster 0).haltC && t.cur.tokCS == 3) ∧
    after .eret (q 0x904) (fun t => (t.cluster 0).qC.map (·.seq) == [1] && t.cur.tokCS == 0) := by
  decide +kernel

/-- FaultEndsTheUnit: without a handler at level 0, and with one at level 1; the job ends with its only unit. With a copy to start the unit
is parked, and ends once the copy is gone. -/
theorem test_fault_ends :
    let s := State.placed State.reset 0
    let rec0 := fun (t : State) (o n : Nat) => t.peek (t.regionBase 0 + 0x20000 + o) n
    after (.ldd 9 5 0) s (fun t => t.cur.unit.isNone && rec0 t 0 1 == 0x04 && rec0 t 1 1 == 4) ∧
    after (.ldd 9 5 0) (atLevel s0 1) (fun t => t.cur.unit.isNone && rec0 t 0 1 == 0x04 && rec0 t 1 1 == 12) ∧
    after (.ldd 9 5 0) s (fun t => (t.job 0 0).isNone) ∧
    after (.ldd 9 5 0) (queuedOp s 0) (fun t => t.cur.unit.isSome && t.parked 0 && leaves (.victimDiscard 0) t t
      && after (.victimDiscard 0) (t.clearQueues 0) (fun t => t.cur.unit.isNone && rec0 t 0 1 == 0x04 && rec0 t 1 1 == 4)) := by
  decide +kernel

/-- The template of eight fields. -/
def fieldsOf (fs : List Nat) : BitVec 128 := BitVec.ofNat 128 ((List.range 8).foldl (fun a k => a + fs.getD k 0 * 2 ^ (16 * k)) 0)
/-- s with a template in slot 0. -/
def withTmpl (s : State) (fs : List Nat) : State := s.setCur { s.cur with tmpl := [(0, fieldsOf fs)] }
/-- After the operation of slot 0 has been issued, p holds. -/
def issued (fs : List Nat) (s : State) (p : State → Bool) : Bool := after (.patchWord 0 0 0 0 0) (withTmpl s fs) p
/-- After it has executed. -/
def ran (i : Nat → Instr) (fs : List Nat) (s : State) (p : State → Bool) : Bool := issued fs s (fun t => after (i 0) t p)
/-- After it has completed. -/
def finished (i : Nat → Instr) (q : QueueName) (fs : List Nat) (s : State) (p : State → Bool) : Bool :=
  ran i fs s (fun t => after (.wideOperationComplete 0 q) t p)
/-- It has faulted with a code and datum. -/
def failed (i : Nat → Instr) (fs : List Nat) (s : State) (code : Nat) (info : BitVec 64) : Bool :=
  ran i fs s (fun t => t.cur.traps.map (fun x => (x.code.toNat, x.info)) == [(code, info)] && t.cur.wdone == 1)

/-- TemplatesAndWRegisters: 2 slots from 32 bytes at offset 64, an odd offset, the last slots that fit, and W registers. -/
theorem test_templates :
    let s := regs (spadWith s1 (cellsAt 64 (toBytes 32 (0x1122 + 0x3344 * 2 ^ 128)))) [(8, 64), (9, 72), (10, 5767152)]
    after (.tmpl 3 8 1) s (fun t => t.cur.slot 3 == 0x1122 && t.cur.slot 4 == 0x3344 && t.cur.slot 5 == resetTemplate && t.cur.slot 2 == resetTemplate) ∧
    raised (.tmpl 3 9 1) s 0x08 72 ∧ raised (.tmpl 3 10 1) s 0x05 5767152 ∧ after (.tmpl 3 10 0) s (fun t => t.cur.slot 3 == 0) ∧
    after (.wmov 7 9) s (fun t => t.cur.getW 7 == 72 && after (.wget 12 7) t (fun u => u.reg 12 == 72)) := by
  decide +kernel

/-- WideOperationsIssue: a field replaced and added to, WIR, a reserved wide opcode, a token the queue lacks, a full queue and an awaited operand. -/
theorem test_wide_issue :
    let add := [0x5000, 3, 0xC005, 0xC006, 0, 0, 0, 0]
    let s := withTmpl (regs s1 [(8, 0x1C007)]) add
    let e := fun (t : State) => (t.cluster 0).qC
    after (.patchWord 0 0 0 0 0) s (fun t => (e t).map (fun x => (fieldOf x.tmpl 1, fieldOf x.tmpl 2, x.seq)) == [(3, 0xC005, 0)] && t.cur.seq == 1) ∧
    after (.patchWord 0 1 1 0 2) s (fun t => (e t).map (fun x => fieldOf x.tmpl 1) == [5] && t.cur.slot 0 == fieldsOf add) ∧
    after (.wir 0 8 0 3 0) s (fun t => (e t).map (fun x => fieldOf x.tmpl 3) == [0xC007]) ∧
    after (.wir 0 8 1 3 0) s (fun t => t.cur.level == 1 && bits t.cur.cause 0 8 == 0x10) ∧
    raised (.patchWord 0 0 0 0 0) (withTmpl s1 [0x6F00]) 0x10 (wordInfo (.patchWord 0 0 0 0 0)) ∧
    raised (.patchWord 0 0 0 9 0) (withTmpl s1 [0x0800, 3, 0, 0]) 0x0F (wordInfo (.patchWord 0 0 0 9 0)) ∧
    after (.patchWord 0 0 0 0 0) (s.setCluster 0 { qC := List.replicate 16 { tmpl := 0, tok := 0, seq := 0, word := 0 } }) (fun t => t.cur.waits.isSome && t.cur.seq == 0) ∧
    after (.patchWord 0 0 0 0 0) (s.setCluster 0 { qC := List.replicate 15 { tmpl := 0, tok := 0, seq := 0, word := 0 } }) (fun t => (e t).length == 16) ∧
    after (.patchWord 0 0 3 0 0x4008) ((withTmpl s1 add).setCur { (withTmpl s1 add).cur with pend := [8] }) (fun t => t.cur.waits.isSome) := by
  decide +kernel

/-- WideOperationsStartAndComplete: a token awaited and taken, an older operation in the way, a full queue register, a counter at 15, and a fault. -/
theorem test_wide_complete :
    let add := [0x5000, 3, 0xC005, 0xC006, 0, 0, 0, 0]
    let s := withTmpl s1 add
    let two := fun (x y : List Nat) => match exec (.patchWord 0 0 0 0 0) (withTmpl s1 x) with | .next t => (match exec (.patchWord 0 0 0 0 0) (withTmpl t y) with | .next u => u | _ => t) | _ => s1
    after (.patchWord 0 0 0 8 0) s (fun t => (t.ready 0 .C).isNone && (({ t with banks := [(0, { t.cur with tokLC := 1 })] } : State).ready 0 .C).isSome &&
      after (.vaddi 0) { t with banks := [(0, { t.cur with tokLC := 1 })] } (fun u => u.cur.tokLC == 0 && ((u.cluster 0).qC.map (fun e => e.phase == .queued)) == [false])) ∧
    issued add s1 (fun t => after (.wideOperationComplete 0 .C) t (fun u => (u.cluster 0).qC.length == 1)) ∧
    finished .vaddi .C add s1 (fun t => (t.cluster 0).qC.isEmpty && t.cur.wdone == 1 && SMap.get 0 t.cur.v (64 * 3 + 63) == 11 && SMap.get 0 t.cur.v (64 * 3) == 11) ∧
    ((two add [0x5000, 4, 3, 0xC006, 0, 0, 0, 0]).ready 0 .C).map (·.seq) = some 0 ∧
    after (.vaddi 0) (two add [0x5000, 4, 5, 0xC006, 0, 0, 0, 0]) (fun t => (t.ready 0 .C).isNone && after (.wideOperationComplete 0 .C) t (fun u => (u.ready 0 .C).map (·.seq) == some 1)) ∧
    (let old : QEntry := { tmpl := 0, tok := 0, seq := 0, word := 0, reads := [4], writes := [3] }
     blocks old { old with reads := [3], writes := [] } = true ∧ blocks old { old with reads := [4], writes := [5] } = false ∧
       blocks old { old with reads := [], writes := [4] } = true ∧ blocks { old with phase := .executed [] } { old with reads := [], writes := [4] } = false) ∧
    (let q := fun (n : Nat) (tok : BitVec 4) (level : BitVec 4) => ((s1.setCluster 0 { qC := [{ tmpl := 0, tok := tok, seq := 9, word := 0x77, phase := .executed [.push 2 5] }] }).setCur
        { s1.cur with tokCS := level }).setCurCore { s1.curCore with q := [(2, List.replicate n 1)] }
     after (.wideOperationComplete 0 .C) (q 8 0 0) (fun t => t.cur.wdone == 0) ∧
     after (.wideOperationComplete 0 .C) (q 7 2 14) (fun t => t.cur.wdone == 1 && (t.curCore.queueReg 2).getD 7 0 == 5 && t.cur.tokCS == 15 && t.cur.traps.isEmpty) ∧
     after (.wideOperationComplete 0 .C) (q 7 2 15) (fun t => t.cur.tokCS == 15 && t.cur.traps.map (fun x => (x.code, x.info, x.seq)) == [(0x0F, 0x77, 9)] && (t.cluster 0).haltC)) ∧
    issued add s1 (fun t => (match (t.cluster 0).qC with | e :: _ => (let u := t.failOp 0 .C e 0x19 5; (u.cluster 0).qC.isEmpty && (u.cluster 0).haltC && u.cur.wdone == 1) | [] => false)) := by
  decide +kernel

/-! ## Vector operations -/

/-- The writes of the operation of slot 0 that has executed, once all its lanes have been read. -/
def wrote (i : Nat → Instr) (fs : List Nat) (s : State) (p : List WideWrite → Bool) : Bool :=
  ran i fs s (fun t => match (t.cluster 0).qL ++ (t.cluster 0).qC ++ (t.cluster 0).qS with
    | e :: _ => (match e.phase with | .executed ws => p ws | _ => false)
    | [] => false)
/-- Lane 63 and the flags of a lane-wise operation. -/
def lane63 (v : Lane) (f : Flags) (ws : List WideWrite) : Bool :=
  match ws with | [.vreg 3 l, .flags g] => l.getD 63 0 == v && g == f && l.length == 64 | _ => false
/-- s1 with lanes 0 and 63 of predicate 1, v4 holding 5 in lane 0 and 3.0 in lane 63, v3 holding 9 in lane 1, v6 holding 9 and -1 in lanes 0 and 63. -/
def s5 : State :=
  s1.setCur { s1.cur with p := [(1, 0x8000000000000001)], v := [(193, 9), (256, 5), (319, 0x40400000), (384, 9), (447, 0xFFFFFFFF)] }

/-- VectorLanesCompute: 3.0 with immediates 1.0, 2.0, -1.0 and infinity under a predicate; an inactive lane under merging and zeroing. -/
theorem test_vector_floats :
    wrote .vaddf [0x4000, 3, 4, 0xCFE0, 0, 1] s5 (lane63 0x40800000 16) ∧ wrote .vsubf [0x4100, 3, 4, 0xCFE0, 0, 1] s5 (lane63 0x40000000 16) ∧
    wrote .vmulf [0x4200, 3, 4, 0xD000, 0, 1] s5 (lane63 0x40C00000 0) ∧ wrote .vfmaf [0x4300, 3, 4, 0xD000, 0xEFE0, 1] s5 (lane63 0x40A00000 16) ∧
    wrote .vminf [0x4400, 3, 4, 0xD000, 0, 1] s5 (lane63 0x40000000 0) ∧ wrote .vmaxf [0x4500, 3, 4, 0xD000, 0, 1] s5 (lane63 0x40400000 0) ∧
    wrote .vsgnf [0x4604, 3, 4, 0xD000, 0, 1] s5 (lane63 0xC0400000 0) ∧ wrote .vexp2 [0x4700, 3, 0xD000, 0, 0, 1] s5 (lane63 0x40800000 0) ∧
    wrote .vlog2 [0x4800, 3, 0xD000, 0, 0, 1] s5 (lane63 0x3F800000 0) ∧ wrote .vrcp [0x4900, 3, 0xD000, 0, 0, 1] s5 (lane63 0x3F000000 0) ∧
    wrote .vrsqrt [0x4A00, 3, 0xCFE0, 0, 0, 1] s5 (lane63 0x3F800000 0) ∧ wrote .vcvt [0x4B00, 3, 4, 0, 0, 1, 0] s5 (fun w => match w with | [.vreg 3 l, _] => l.getD 63 0 == 3 | _ => false) ∧
    failed .vcvt [0x4B10, 3, 4, 0, 0, 1, 7] s5 0x13 7 ∧
    wrote .vcmpf [0x4C10, 0x4002, 4, 0xD000, 0, 1] s5 (fun w => w == [.preg 2 0x8000000000000000, .flags 0]) ∧
    wrote .vsel [0x4D00, 3, 4, 0xC007, 2, 1] s5 (lane63 7 0) ∧
    wrote .vsel [0x4D00, 3, 4, 0xC007, 1, 0] s5 (fun w => match w with | .vreg 3 l :: _ => l.getD 1 0 == 7 && l.getD 0 0 == 5 | _ => false) ∧
    wrote .vsel [0x4D00, 3, 4, 0xC007, 1, 1] s5 (fun w => match w with | .vreg 3 l :: _ => l.getD 1 0 == 9 && l.getD 2 5 == 0 | _ => false) ∧
    wrote .vsel [0x4D00, 3, 4, 0xC007, 1, 9] s5 (fun w => match w with | .vreg 3 l :: _ => l.getD 1 1 == 0 | _ => false) := by
  decide +kernel

/-- IntegerLanesCompute: lane 63 holds 0x40400000; sums that wrap and saturate, signs, shifts of 33, and comparisons. -/
theorem test_vector_integers :
    wrote .vaddi [0x5000, 3, 4, 4, 0, 1] s5 (lane63 0x80800000 0) ∧ wrote .vaddi [0x5004, 3, 4, 4, 0, 1] s5 (lane63 0x7FFFFFFF 0) ∧
    wrote .vsubi [0x5100, 3, 0xFFFF, 4, 0, 1] s5 (lane63 0xBFBFFFFF 0) ∧ wrote .vmuli [0x5204, 3, 4, 0xFFFD, 0, 1] s5 (lane63 0x80000000 0) ∧
    wrote .vand [0x5300, 3, 4, 0xFFFF, 0, 1] s5 (lane63 0x40400000 0) ∧ wrote .vor [0x5400, 3, 4, 0xC001, 0, 1] s5 (lane63 0x40400001 0) ∧
    wrote .vxor [0x5500, 3, 4, 4, 0, 1] s5 (lane63 0 0) ∧ wrote .vshl [0x5600, 3, 4, 0xC021, 0, 1] s5 (lane63 0x80800000 0) ∧
    wrote .vshr [0x5700, 3, 0xFFFF, 0xC021, 0, 1] s5 (lane63 0x7FFFFFFF 0) ∧ wrote .vsar [0x5800, 3, 0xFFFE, 0xC021, 0, 1] s5 (lane63 0xFFFFFFFF 0) ∧
    wrote .vmini [0x5900, 3, 4, 0xFFFF, 0, 1] s5 (lane63 0xFFFFFFFF 0) ∧ wrote .vmini [0x5904, 3, 4, 0xFFFF, 0, 1] s5 (lane63 0x40400000 0) ∧
    wrote .vmaxi [0x5A00, 3, 4, 0xFFFF, 0, 1] s5 (lane63 0x40400000 0) ∧
    wrote .vcmpi [0x5B08, 0x4002, 0xFFFF, 4, 0, 1] s5 (fun w => w == [.preg 2 0x8000000000000001, .flags 0]) ∧
    wrote .vcmpi [0x5B10, 0x4002, 0xFFFF, 4, 0, 1] s5 (fun w => w == [.preg 2 0, .flags 0]) ∧
    wrote .vbcast [0x6000, 3, 4, 0xC07F, 0, 1] s5 (lane63 0x40400000 0) ∧ wrote .viota [0x6100, 3, 0xC005, 0xC002, 0, 1] s5 (lane63 131 0) ∧
    wrote .vperm [0x6200, 3, 4, 0xC040, 6, 1] s5 (lane63 9 0) ∧ wrote .vperm [0x6200, 3, 4, 0xC000, 6, 1] s5 (lane63 5 0) := by
  decide +kernel

/-- VectorReductionsAndSelections: over the two active lanes 5 and 0x40400000, and over none. -/
theorem test_vector_reductions :
    wrote .vredsum [0x6304, 3, 4, 0, 0, 1] s5 (lane63 0x40400005 0) ∧ wrote .vredsum [0x6304, 3, 4, 0, 0, 2] s5 (lane63 0 0) ∧
    wrote .vredsum [0x6304, 0x8002, 4, 0, 0, 1] s5 (fun w => w == [.push 2 0x40400005, .flags 0]) ∧
    wrote .vredmax [0x6404, 3, 4, 0, 0, 1] s5 (lane63 0x40400000 0) ∧ wrote .vredmax [0x6404, 3, 4, 0, 0, 2] s5 (lane63 0x80000000 0) ∧
    wrote .vargmax [0x6504, 0x8002, 4, 0xC003, 0, 1] s5 (fun w => w == [.push 2 0x0000004240400000, .flags 0]) ∧
    wrote .vtopk [0x6604, 3, 4, 0xC000, 0xC002, 1, 5] s5 (fun w => match w with | [.vreg 3 v, .vreg 5 i, _] => v.take 3 == [0x40400000, 5, 0x80000000] && i.take 3 == [63, 0, 0xFFFFFFFF] | _ => false) ∧
    wrote .vpopc [0x6700, 0x8002, 0, 0, 0, 1] s5 (fun w => w == [.push 2 2]) ∧
    wrote .vscan [0x6904, 3, 4, 0, 0, 1] s5 (lane63 0x40400005 0) ∧
    wrote .vmovs [0x6800, 0x8002, 4, 0xC03F] s5 (fun w => w == [.push 2 0x40400000]) ∧
    wrote .vmovs [0x6804, 0x8002, 6, 0xC03F] s5 (fun w => w == [.push 2 0xFFFFFFFFFFFFFFFF]) ∧
    wrote .plog [0x6A18, 0x4002, 1, 0] s5 (fun w => w == [.preg 2 0x7FFFFFFFFFFFFFFE]) := by
  decide +kernel

/-! ## Scratchpad, tiles, Vat, Separator, copies -/

/-- s5 with bank 0 of INT8, 0x85 at h0 offset 128, tile 0 a row of two FP32 (2.0, 1.0), tile 1 a column of two, tiles 2 and 3 of C4 with
codebook slots 4 and 5, and the first word of accumulator 0 at 3.0; predicate 2 has lane 0 alone. -/
def s6 : State :=
  let s := spadWith s5 [(128, 0x85)]
  let s := s.setCurCore { s.curCore with
    spfmt := [(0, 3)]
    tshape := [(0, 0x20100), (1, 0x20001), (2, 0x400000), (3, 0x500000)]
    tiles := [(2, 0x00), (3, 0x40), (6, 0x80), (7, 0x3F)] }
  (s.setCur { s.cur with p := SMap.set 0 s.cur.p 2 1 }).setCluster 0 { acc := [(0, 0x40400000)] }

/-- ScratchpadAndTileMoves: loads and stores of tiles and lanes. -/
theorem test_scratchpad_moves :
    wrote .tld [0x0000, 0, 1, 0xC000] s6 (fun w => match w with | [.tile 0 c] => c.take 2 == [(0, 0x85), (1, 0)] && c.length == 8 | _ => false) ∧
    wrote .tst [0xC000, 1, 0, 0xC080] s6 (fun w => match w with | [.spad c] => c.drop 6 == [(262, 0x80), (263, 0x3F)] && (c.take 1).map (·.1) == [256] | _ => false) ∧
    wrote .vldg [0x0200, 3, 1, 6, 0, 2] s6 (fun w => match w with | [.vreg 3 l] => l.getD 0 1 == 0 && l.getD 1 0 == 9 | _ => false) ∧
    failed .vldg [0x0200, 3, 1, 6, 0, 1] s6 0x05 (128 + 0xFFFFFFFF) ∧
    wrote .vst [0xC100, 1, 4, 0xC000, 0, 2] s6 (fun w => match w with | [.spad c, .flags 0] => c == [(128, 5)] | _ => false) ∧
    wrote .vsts [0xC200, 1, 4, 6, 0, 2] s6 (fun w => match w with | [.spad c, .flags 0] => c == [(137, 5)] | _ => false) ∧
    failed .vsts [0xC200, 1, 4, 6, 0, 1] s6 0x05 (128 + 0xFFFFFFFF) ∧
    wrote .tabld [0x0800, 5, 1, 1] s6 (fun w => w == [.tab 5 (List.replicate 16 0)]) := by
  decide +kernel

/-- ScratchpadAndTileMoves: 64 elements of INT8 sign-extended, and copied. -/
theorem test_scratchpad_lanes :
    wrote .vld [0x0100, 3, 1, 0xC000, 0, 2] s6 (fun w => match w with | [.vreg 3 l] => l.getD 0 0 == 0xFFFFFF85 && l.getD 1 0 == 9 | _ => false) ∧
    wrote .spcpy [0x0300, 2, 1, 1] s6 (fun w => match w with | [.spad c, .flags _] => (c.take 2) == [(256, 0x85), (257, 0)] | _ => false) := by
  decide +kernel

/-- ScratchpadAndTileMoves: the accumulator, and tiles to tiles. -/
theorem test_tile_moves :
    wrote .aclr [0x8210, 0] s6 (fun w => match w with | [.acc c] => (c.headD (1, 1)).2 == 0 | _ => false) ∧
    wrote .ard [0x8300, 0, 0, 0, 0] s6 (fun w => match w with | [.tile 0 c, .flags 0] => c.map (·.2) == [0, 0, 0x40, 0x40, 0, 0, 0, 0] | _ => false) ∧
    wrote .awr [0x8600, 0, 0, 1, 2] s6 (fun w => w == [.acc [(258, 0x40000000), (259, 0x3F800000)]]) ∧
    wrote .ardst [0xC500, 1, 0, 0, 0, 0x0100] s6 (fun w => match w with | [.spad c, .flags 0] => c == [(128, 3), (129, 0)] | _ => false) ∧
    wrote .txp [0x8400, 1, 0] s6 (fun w => match w with | [.tile 1 c] => c.map (·.2) == [0, 0, 0, 0x40, 0, 0, 0x80, 0x3F] | _ => false) ∧
    failed .tabsel [0x8500, 2, 3] s6 0x13 5 := by
  decide +kernel

/-- s6 with tiles 4 and 5 of 128 x 1 and 1 x 128 BF16, the first elements 2.0 and 1.0, and the Vat awake. -/
def s7 : State :=
  s6.setCurCore { s6.curCore with
    tshape := SMap.set 0 (SMap.set 0 s6.curCore.tshape 4 0x1007F) 5 0x17F00
    tiles := SMap.set 0 (SMap.set 0 (SMap.set 0 s6.curCore.tiles 131073 0x40) 163840 0x80) 163841 0x3F
    vat := { asleep := false } }
/-- Run one after another from a state. -/
def chain (s : State) : List Instr → (State → Bool) → Bool
  | [], p => p s
  | i :: is, p => after i s (fun t => chain t is p)
/-- Four cycles later. -/
def later4 (s : State) : State := { s with cycles := s.cycles + 4 }
/-- s7 with a granted session of 2 commands, its status in s9. -/
def s8 : State :=
  match exec (.vlease 9 2) (withTmpl s7 [0x8000, 0, 4, 5]) with
  | .next t => (match exec (.vatArbitration 0) t with
    | .next u => (match exec (.vatGrant 0) (later4 u) with | .next v => v | _ => u)
    | _ => t)
  | _ => s7

/-- VatSessionsAndCommands: a session is asked for, picked, granted and closed; a second VLEASE; a member of a gang. -/
theorem test_vat_lease :
    after (.vlease 9 2) s7 (fun t => t.cur.pend == [9] && t.cur.session == some { no := 1, n := 2 } && after (.vatArbitration 0) t (fun u =>
      u.curCore.vat.picked == some (0, 0, { no := 1, n := 2 }, 0) && leaves (.vatGrant 0) { u with cycles := 3 } { u with cycles := 3 } &&
      after (.vatArbitration 0) u (fun v => v.curCore.vat.picked == u.curCore.vat.picked)) &&
      after .vfree t (fun u => u.cur.pend == [] && u.reg 9 == 0x212 && u.cur.session.isNone)) ∧
    (s8.reg 9 == 0x200 && s8.cur.pend == [] && s8.curCore.vat.lastHolder == 0 && (s8.curCore.vat.lease.map (fun l => (l.left, l.granted))) == some (2, 4)) = true ∧
    raised (.vlease 9 2) s8 0x12 (s8.leaseReg 0) ∧ after (.vlease 9 2) gang2 (fun t => t.cur.session.isSome) ∧
    after (.vlease 9 2) (gang2.setCur { gang2.cur with issueWidth := 1, forked := true }) (fun t => bits t.cur.cause 0 8 == 0x1D) ∧
    after (.vatArbitration 0) s7 (fun t => t.curCore.vat.picked.isNone) := by
  decide +kernel

/-- VatSessionsAndCommands: a command under the lease occupies the array for 8 cycles, leaves it, completes 32 cycles later; one without a session; power and time. -/
theorem test_vat_commands :
    after (.patchWord 0 0 0 0 0) s8 (fun t => after (.mma 0) t (fun u =>
      u.curCore.vat.running == some (0, 12) && u.curCore.vat.lease.map (·.left) == some 1 &&
      (match (u.cluster 0).qC with | e :: _ => (match e.phase with | .occupying [.acc c] => c.take 2 == [(0, 0x40A00000), (1, 0)] | _ => false) | [] => false) &&
      after (.vatOccupancyEnd 0) { u with cycles := 11 } (fun v => v.curCore.vat.running.isSome) &&
      after (.vatOccupancyEnd 0) { u with cycles := 12 } (fun v => v.curCore.vat.running.isNone && v.curCore.vat.leaving == [(0, 44)] &&
        after (.vatCommandComplete 0) { v with cycles := 43 } (fun w => w.cur.wdone == 0)))) ∧
    issued [0x8000, 0, 4, 5] s7 (fun t => after (.mma 0) t (fun u => u.cur.traps.map (·.code) == [0x12])) ∧
    issued [0x8100, 0, 4, 5, 6, 7] (s7.setCurCore { s7.curCore with tshape := SMap.set 0 (SMap.set 0 s7.curCore.tshape 6 0x4007F) 7 0x47F00 }) (fun t => (t.ready 0 .C).isSome && after (.mmas 0) t (fun u => u.cur.traps.map (·.code) == [0x12])) ∧
    after (.leaseTimeout 0) { s8 with cycles := 8196 } (fun t => t.curCore.vat.lease.isNone) ∧ after (.leaseTimeout 0) { s8 with cycles := 8195 } (fun t => t.curCore.vat.lease.isSome) ∧
    after (.vatPowerDown 0) { s7 with cycles := 1024 } (fun t => t.curCore.vat.asleep) ∧ after (.vatPowerDown 0) { s7 with cycles := 1023 } (fun t => !t.curCore.vat.asleep) ∧
    (let s := (s1.setCluster 0 { qC := [{ tmpl := fieldsOf [0x8000], tok := 0, seq := 0, word := 0, phase := .draining [.acc [(5, 7)]] }] }).setCurCore { s1.curCore with vat := { asleep := false, leaving := [(0, 44)] } }
     after (.vatCommandComplete 0) { s with cycles := 44 } (fun t => t.cur.wdone == 1 && SMap.get 0 (t.cluster 0).acc 5 == 7 && t.curCore.vat.leaving.isEmpty)) := by
  decide +kernel

/-- Reading the codeword at t meets nothing when every cell of it holds 0. -/
theorem clean_of (c : Core) (ts : List Nat) (hf : c.failed = []) (hk : ∀ e ∈ c.spad, e.1 % 262144 ∈ ts)
    (ht : ∀ t ∈ ts, c.decodeWord t = some ([], false)) (t : Nat) (h : t < 262144) : c.decodeWord t = some ([], false) := by
  by_cases hin : t ∈ ts
  · exact ht t hin
  · have hz : ∀ b, c.cell b t = 0 := by
      intro b
      have : ∀ m : SMap Byte, (∀ e ∈ m, e.1 % 262144 ∈ ts) → SMap.get 0 m (b * bankBytes + t) = 0 := by
        intro m
        induction m with
        | nil => intro _; rfl
        | cons e m ih =>
          intro hm
          obtain ⟨k, v⟩ := e
          have he : k % 262144 ∈ ts := hm (k, v) (by simp)
          have hne : k ≠ b * bankBytes + t := by
            intro hx
            have hk : k % 262144 = t := by rw [hx, bankBytes]; omega
            exact hin (hk ▸ he)
          rw [SMap.get, if_neg hne]
          exact ih (fun x hx => hm x (by simp [hx]))
      rw [Core.cell, this c.spad hk]; rfl
    have hs : c.syndromes t [] = (0, 0) := by simp only [Core.syndromes, hz]; rfl
    simp [Core.decodeWord, hf, hs]

/-- s1 with a grammar image of one empty row at h0 offset 128, its check bytes written out. -/
def s9 : State :=
  s1.setCurCore { s1.curCore with spad := [(128, 1), (136, 1), (140, 1), (5767296, 0xA4), (5767304, 0xA4), (5767308, 0xA4), (6029440, 0xA5), (6029448, 0xA5), (6029452, 0xA5)] }
/-- An image at h0 offset 128 with rule 0 = 3.0 x input 0 and row 0 = rule 0. -/
def image1 : Binding :=
  { image := 128, depth := 1, rules := 1, rows := 1, cols := 1, symbols := 2, ruleIndex := 0, rowIndex := 8, stream := 16, table := [0, 0x4040] }
/-- s1 with that image bound, and its input 2.0 at h0 offset 0. -/
def s10 : State :=
  let s := s1.setCurCore { s1.curCore with spad := [(3, 0x40), (132, 1), (135, 1), (136, 1), (140, 1), (144, 1), (151, 0x80), (5767171, 0x72),
    (5767300, 0xA4), (5767303, 0xA4), (5767304, 0xA4), (5767308, 0xA4), (5767312, 0xA4), (5767319, 0xE4), (6029315, 0x32), (6029444, 0xA5),
    (6029447, 0xA5), (6029448, 0xA5), (6029452, 0xA5), (6029456, 0xA5), (6029463, 0x64)] }
  s.setCur { s.cur with binding := some image1 }

/-- SeparatorLoadsAndEvaluates: no codeword of s9 and s10 needs correction. -/
theorem test_clean : (∀ t < 262144, s9.curCore.decodeWord t = some ([], false)) ∧ (∀ t < 262144, s10.curCore.decodeWord t = some ([], false)) :=
  ⟨clean_of _ [128, 136, 140] (by decide +kernel) (by decide +kernel) (by decide +kernel),
   clean_of _ [3, 132, 135, 136, 140, 144, 151] (by decide +kernel) (by decide +kernel) (by decide +kernel)⟩

/-- SeparatorLoadsAndEvaluates: a GLOAD of a good image and of zeros, a product through a rule, nothing bound, and entries put in lanes. -/
theorem test_separator :
    issued [0x0900, 1] s9 (fun t => (t.ready 0 .L).map (fun e => (wopOf e.tmpl, e.addr 1, e.limit)) == some (9, 128, 15)) ∧
    issued [0x0900, 2] s9 (fun t => (t.ready 0 .L).map (fun e => e.addr 1) == some 256) ∧
    (let word := fun (o n : Nat) => ofBytes ((List.range n).map (fun i => SMap.get 0 s9.curCore.spad (o + i)))
     [word 128 2, word 130 1, word 131 1, word 132 4, word 136 4, word 140 4, word 144 4, word 148 4, word 152 4, word 156 4] = [1, 0, 0, 0, 1, 1, 0, 0, 0, 0] ∧
       (∀ k < 32, SMap.get 0 s9.curCore.spad (160 + k) = 0) ∧ word 256 2 = 0) ∧
    finished .gmv .C [0x9000, 3, 0, 0, 0] s10 (fun t => SMap.get 0 t.curCore.rvf 0 == 0x40C00000 && t.cur.wdone == 1 &&
      (List.range 4).map (fun k => SMap.get 0 t.curCore.spad (384 + k)) == [0, 0, 0xC0, 0x40]) ∧
    failed .gmv [0x9000, 3, 0, 0, 0] s1 0x15 0xFFFFFFFF00150000 ∧
    wrote .grvf [0x9104, 3, 0xC001, 0, 0, 2] (s6.setCurCore { s6.curCore with rvf := [(9, 0x77)] }) (fun w => match w with | [.vreg 3 l] => l.getD 0 0 == 0x77 && l.getD 1 0 == 9 | _ => false) ∧
    (let s := withTmpl (s1.setCluster 1 { qC := [{ tmpl := fieldsOf [0x9000], tok := 0, seq := 0, word := 0, phase := .executed [] }] }) [0x9000, 3]
     after (.patchWord 0 0 0 0 0) s (fun t => after (.gmv 0) t (fun u => (u.cluster 0).qC.map (·.queued) == [true]))) ∧
    issued [0x9000, 3, 0, 0, 0] (s10.setCurCore { s10.curCore with sepQueue := [1, 0] }) (fun t => !t.separatorTakes 0 &&
      after (.gmv 0) t (fun u => (u.cluster 0).qC.map (·.queued) == [true])) := by
  decide +kernel

/-- s2 with handle 1 in the state given for copies. -/
def copying (h : Handle) : State := s2.setCur { s2.cur with h := SMap.set {} s2.cur.h 1 h }
/-- A copy that has executed with its writes but for the flags. -/
def moved (i : Nat → Instr) (fs : List Nat) (s : State) (ws : List WideWrite) : Bool :=
  wrote i fs s (fun w => w.filter (fun x => match x with | .flags _ => false | _ => true) == ws)

/-- A copy that has started and moved its one window answers its token, and p holds. -/
def copied (i : Nat → Instr) (fs : List Nat) (s : State) (tok : BitVec 64) (p : State → Bool) : Bool :=
  ran i fs s (fun t => after (i 0) t (fun u => p u && match (u.cluster 0).qL ++ (u.cluster 0).qC ++ (u.cluster 0).qS with
    | [e] => (match e.phase with | .executed [.flags _, .sreg 9 v] => v == tok | _ => false)
    | _ => false))

/-- CopiesMoveTheirElements: its scratchpads meet nothing. -/
theorem test_copy_clean (t : Nat) (h : t < 262144) : s2.curCore.decodeWord t = some ([], false) :=
  clean_of _ [] (by decide +kernel) (by decide +kernel) (by decide +kernel) t h

/-- CopiesMoveTheirElements: rows of two FP32 in, out and by an index list; each handle state; a copy whose handle a REVOKE takes away before its first window. -/
theorem test_copies :
    (∀ k < 2, (s2.cur.handle 1).covers (0x90000008 + BitVec.ofNat 64 (4 * k)) = true ∧ memKind (0x90000008 + 4 * k) ≠ .host ∧
      s2.objectFault (some 0) (0x90000008 + 4 * k) 4 false = none ∧ s2.objectFault (some 0) (0x90000008 + 4 * k) 4 true = none ∧
      s2.readFault (0x90000008 + 4 * k) 4 = (s2, none) ∧ s2.lineFault 0x1200000 [0, 1, 2, 3] false = (s2, none)) ∧
    copied .cpy [0x0400, 9, 0x21, 0xC008, 1, 0, 1] s2 0x800 (fun t => t.curCore.spPeek 128 8 == 0xF706050403020180) ∧
    copied .cpyg [0x0500, 9, 0x21, 0xC008, 1, 0, 1] s2 0x800 (fun t => t.curCore.spPeek 128 8 == 0xF706050403020180) ∧
    copied .cpyo [0xC300, 9, 0x21, 0xC008, 1, 0, 1] s2 0x800 (fun t => t.peek64 0x90000008 == 0) ∧
    copied .cpys [0xC400, 9, 0x21, 0xC008, 1, 0, 1] s2 0x800 (fun t => t.peek64 0x90000008 == 0) ∧
    ran .cpy [0x0400, 9, 0x21, 0xC008, 1, 0, 1] s2 (fun t => (t.cluster 0).qL.map (fun e => (e.phase, e.handle.state)) == [(.copying 0 0, .valid)] &&
      after (.cpy 0) (t.setCluster 0 { t.cluster 0 with qL := (t.cluster 0).qL.map (QEntry.revoke (fun _ => true)) }) (fun u =>
        (u.cluster 0).qL.map (·.phase) == [.executed [.flags 0, .sreg 9 4]])) ∧
    moved .cpy [0x0400, 9, 0x25, 0xC008, 1, 0, 1] s2 [.sreg 9 4] ∧ moved .cpy [0x0400, 9, 0x23, 0xC008, 1, 0, 1] (s2.setCur { s2.cur with h := [(3, { state := .fault 0x05 })] }) [.sreg 9 5] ∧
    moved .cpy [0x0400, 9, 0x23, 0xC008, 1, 0, 1] s2 [.sreg 9 7] ∧
    moved .cpyo [0xC300, 9, 0x24, 0xC008, 1, 0, 1] s2 [.sreg 9 6] ∧ moved .cpy [0x0400, 9, 0x01, 0xC008, 1, 0, 1] s2 [.sreg 9 0x13] ∧
    moved .cpy [0x0400, 9, 0x21, 0xC008, 1, 0, 1] (copying { state := .valid, va := 0x90000000, frame := 0x90000000, size := 65536, limit := 8, perm := 15 }) [.sreg 9 5] ∧
    issued [0x0400, 9, 0x21, 0xC008, 1, 0, 1] (copying { state := .pending, walk := 3 }) (fun t => (t.cur.handle 1).walking 3 && after (.cpy 0) t (fun u => (u.cluster 0).qL.map (·.queued) == [true])) := by
  decide +kernel

/-- CopiesMoveTheirElements: CPYR of a success, of words that do not fit, of a restart from 0, and with its request outstanding and answered. -/
theorem test_copy_resumed :
    let s := fun (v : BitVec 64) => regs s2 [(8, v)]
    let fs := [0x0700, 9, 0x21, 0xC008, 1, 0, 1, 0x0800]
    moved .cpyr fs (s 0x800) [.sreg 9 0x800] ∧ moved .cpyr fs (s 0x105) [.sreg 9 0x11F] ∧ moved .cpyr fs (s 0x100005) [.sreg 9 0x10001F] ∧
    copied .cpyr fs (s 0x05) 0x800 (fun t => t.curCore.spPeek 128 8 == 0xF706050403020180) ∧
    (let a := fun (answered : Bool) => (s 0x07).setPart 0 { s2.part 0 with answers := [{ bank := 0, progress := 0, fields := [0, 0, 0x21, 0xC008, 1, 0, 1, 0], token := 8, request := 1, answered := answered, failed := true }] }
     issued fs (a false) (fun t => after (.cpyr 0) t (fun u => (u.cluster 0).qL.map (·.queued) == [true])) ∧ moved .cpyr fs (a true) [.sreg 9 7]) := by
  decide +kernel

/-! ## Nodes and regions -/

/-- σ, the root's name and the names of a chain of blocks of zeros, with name_test set. -/
def sigma0 : BitVec 64 := s1.sigma 0
def name1 : BitVec 128 := childName true sigma0 (rootName true sigma0) [0, 0, 0, 0]
def name2 : BitVec 128 := childName true sigma0 name1 [0, 0, 0, 0]
/-- A node of 4 tokens, one layer, one head, dim 2, FP32. -/
def node1 : Node :=
  { part := 0, owner := 0, opener := 0, name := name1, sigma := sigma0, parent := none, map := 0xA0010000, pages := [0xA0020000, 0xA0030000],
    depth := 1, state := .sealed, tier := 1, test := true, bcode := 0, shape := 0x20020000, tokens := [0, 0, 0, 0], gen := 0 }
def node2 : Node :=
  { node1 with name := 0, parent := some 0xA0000000, map := 0xA0040000, pages := [0xA0050000, 0xA0060000], depth := 2, state := .opened }
def node3 : Node := { node1 with name := name2, parent := some 0xA0000000, depth := 2, state := .remote }
/-- n1 names a SEALED node, n2 the unit's OPEN child of it, n3 a REMOTE stub, n4 nothing, n5 the root; pool 1 is 2 MiB at 0xA0200000. -/
def s11 : State :=
  let s := (s1.setCur { s1.cur with n := [(1, .node 0xA0000000 0), (2, .node 0xA0000080 0), (3, .node 0xA0000100 0), (5, .root sigma0)] }).setPart 0
    { s1.part 0 with nameTest := true, kvBlockTokens := 0, kvShape := 0x20020000, kv1Base := 0xA0200000, kv1Size := 1 }
  { s.putHeader 0xA0000080 0 0 8 0 0 0xFFF0 with nodes := [(0xA0000000, some node1), (0xA0000080, some node2), (0xA0000100, some node3)], index := [(name1, 0xA0000000)] }
/-- The node instruction raises NODE with register 4. -/
def noNode (i : Instr) : Bool := raised i s11 0x17 4

/-- NodesOfTheCreamery: a register that names no live node. -/
theorem test_no_node :
    s11.liveNode (s11.cur.getN 4) = none ∧ noNode (.nlease 9 4) ∧ noNode (.nrefInc 4) ∧ noNode (.nrefDec 4) ∧ noNode (.nxl 5 8 9 4) ∧ noNode (.seal 0 4) ∧
    after (.nfetch 0 4) s11 (fun t => t.cur.pc == 0x80000004) ∧ noNode (.ndrop 4) ∧
    raised (.nopen 0 4) s11 0x17 4 ∧ raised (.nopen 0 2) s11 0x17 2 ∧ raised (.nopen 0 5) (s11.setPart 0 { s11.part 0 with kvShape := 0 }) 0x17 5 := by
  decide +kernel

/-- NodesOfTheCreamery: leases, references, statuses and handles of live nodes. -/
theorem test_live_nodes :
    let s := regs s11 [(8, 0x8000000300000005), (9, 3), (10, 0x200), (11, 4), (12, 8), (13, 1)]
    after (.nlease 8 1) s (fun t => (t.node 0xA0000000).map (fun n => (n.cls, n.leaseExpiry)) == some (3, 5000)) ∧
    after (.nrefInc 1) s (fun t => (t.node 0xA0000000).map (·.refs) == some 1 && after (.nrefDec 1) t (fun u => (u.node 0xA0000000).map (·.refs) == some 0)) ∧
    raised (.nrefDec 1) s 0x17 1 ∧ raised (.nrefInc 1) { s with nodes := [(0xA0000000, some { node1 with refs := 0xFFFFFFFF })] } 0x17 1 ∧
    after (.nfetch 9 1) s (fun t => t.reg 9 == 0x100010100) ∧ after (.nfetch 9 3) s (fun t => t.cur.pend == [9] && t.cur.nfetch.length == 1) ∧
    after (.nxl 5 9 0 1) s (fun t => (t.cur.handle 5).va == 0x00FF0000A0020098 && (t.cur.handle 5).perm == 1) ∧
    after (.nxl 5 11 10 2) s (fun t => (t.cur.handle 5).va == 0x00FF0000A0040020 && (t.cur.handle 5).perm == 3) ∧
    raised (.nxl 5 12 0 2) s 0x05 8 ∧ raised (.nxl 5 9 13 2) s 0x05 3 ∧
    after (.ndrop 2) s (fun t => (t.node 0xA0000080).isNone && t.gen 0xA0000080 == 1 && t.cur.getN 2 == .empty) ∧ after (.ndrop 1) s (fun t => (t.node 0xA0000000).isSome && t.cur.getN 1 == .empty) := by
  decide +kernel

/-- NodesOfTheCreamery: a prefix of one block found, and of two; an odd offset and one past the end; SEAL of a new name, of a known one, of a collision, and busy. -/
theorem test_prefix_and_seal :
    let s := regs s11 [(8, 0x100), (9, 4), (10, 8), (11, 0x102), (12, 5767164)]
    after (.pfx 6 8 9 0) s (fun t => t.reg 9 == 4 && t.cur.getN 6 == .node 0xA0000000 0 && (t.node 0xA0000000).map (·.leaseExpiry) == some 1000000) ∧
    after (.pfx 6 8 10 0) s (fun t => t.reg 10 == 4) ∧ raised (.pfx 6 11 9 0) s 0x08 0x102 ∧ raised (.pfx 6 12 9 0) s 0x05 5767164 ∧
    after (.seal 6 2) s (fun t => t.cur.getN 6 == .node 0xA0000080 0 && (t.node 0xA0000080).map (fun n => (n.name, n.state, n.collided)) == some (name2, .sealed, false) && t.index.length == 2) ∧
    after (.seal 6 2) { s with nodes := [(0xA0000000, some node1), (0xA0000080, some node2), (0xA0000200, some { node3 with state := .sealed })], index := [(name1, 0xA0000000), (name2, 0xA0000200)] }
      (fun t => t.cur.getN 6 == .node 0xA0000200 0 && (t.node 0xA0000080).isNone) ∧
    after (.seal 6 2) { s with nodes := [(0xA0000000, some node1), (0xA0000080, some node2), (0xA0000200, some { node3 with shape := 0 })], index := [(name1, 0xA0000000), (name2, 0xA0000200)] }
      (fun t => (t.node 0xA0000080).map (·.collided) == some true && (t.part 0).collideCount == 1) ∧
    after (.seal 6 2) (s.setCluster 0 { qC := [{ tmpl := 0, tok := 0, seq := 0, word := 0 }] }) (fun t => t.cur.waits.isSome) ∧ raised (.seal 6 1) s 0x17 1 := by
  decide +kernel

/-- NodesOfTheCreamery: probes in a domain of two, forwarded reads, and a directory that holds, gains and loses a device. -/
theorem test_directory :
    let s := { s11 with mgmt := { s11.mgmt with domCfg := 1 } }
    let k : NameKey := { s11.nodeKey node3 with name := name2 }
    let e : DirEntry := { key := k, holders := [1] }
    let d := { s with directory := [e], peerEntries := [e] }
    s.domainSize = 2 ∧ s.indexed name2 = none ∧ s.probe k = none ∧ s.pfxStep 0 true false none k = (s, .stop) ∧
    (d.probe k).map (·.holders) = some [1] ∧ ((d.pfxStep 0 true false none { k with shape := 0 }).1.part 0).collideCount = 1 ∧
    after (.remoteProbe name2) d (fun t => t.signals == [.probeAnswer [e]]) ∧ after (.forwardedRead name2) s (fun t => t.signals == [.forward none]) ∧
    after (.holderRegistration true 5 k) d (fun t => t.directory.map (·.holders) == [[1, 5]]) ∧ after (.holderRegistration true 1 k) d (fun t => t.directory == d.directory) ∧
    after (.holderRegistration false 1 k) d (fun t => t.directory == []) ∧ after (.holderRegistration true 5 k) s (fun t => t.directory.map (·.holders) == [[5]]) := by
  decide +kernel

/-- NodesOfTheCreamery: NOPEN of a child of the root finds its record, map and two pages, and a probed stub its record. -/
theorem test_pool_has_room :
    shapeUsable 0x20020000 4 = true ∧ pageCount 0x20020000 4 = 2 ∧
      (∃ z r m frames, s11.allocate 0 1 (pageCount 0x20020000 4 + 1) s11.nodeFuel = (z, .got r (m :: frames))) ∧
      ∃ z r l, s11.allocate 0 1 0 s11.nodeFuel = (z, .got r l) := by
  refine ⟨by decide +kernel, by decide +kernel, ?_, ?_⟩
  · obtain ⟨_, r, l, h, hl, _⟩ := State.allocate_got s11 0 1 3 3 (by decide +kernel) (by decide +kernel)
    cases l with
    | nil => simp at hl
    | cons m frames => exact ⟨_, r, m, frames, h⟩
  · obtain ⟨_, r, l, h, _, _⟩ := State.allocate_got s11 0 1 0 3 (by decide +kernel) (by decide +kernel)
    exact ⟨_, r, l, h⟩

/-- The stub n3 with a fetch under way, in a domain whose name device lists two holders. -/
def fetching : State :=
  let e : DirEntry := { key := s11.nodeKey node3, holders := [1, 2] }
  { s11.setCur { s11.cur with nfetch := [{ reg := 9, node := .node 0xA0000100 0 }], pend := [9] } with mgmt := { s11.mgmt with domCfg := 1 }, directory := [e], peerEntries := [e] }

/-- NodesOfTheCreamery: answers to the fetch of the stub n3: frames are found, whichever they are, two holders are known, and what a holder
of the stub's own key sends makes a node. -/
theorem test_fetch_answers :
    let k : RemoteNode := { key := fetching.nodeKey node3, depth := 2, holder := 1, pages := [] }
    pageCount node3.shape 4 = 2 ∧ fetching.probe k.key = some { key := k.key, holders := [1, 2] } ∧
      ∃ f r m pages, let z := { fetching with freeNo := f }
        fetching.allocate 0 1 3 fetching.nodeFuel = (z, .got r (m :: pages)) ∧ z.liveNode (.node 0xA0000100 0) = some (0xA0000100, node3) ∧
        ∃ m', (z.replicate 0xA0000100 node3 m pages k).node 0xA0000100 = some m' := by
  refine ⟨by decide +kernel, by decide +kernel, ?_⟩
  obtain ⟨f, r, l, h, hl, _⟩ := State.allocate_got fetching 0 1 3 3 (by decide +kernel) (by decide +kernel)
  cases l with
  | nil => simp at hl
  | cons m pages =>
    have hn : fetching.liveNode (.node 0xA0000100 0) = some (0xA0000100, node3) := by decide +kernel
    exact ⟨f, r, m, pages, h, (State.liveNode_freeNo _ _ _).trans hn, State.replicate_node _ _ _ _ _ _⟩

/-- CopiesMoveTheirElements: the K elements of a SEALED node, in, and of the unit's OPEN node, out; a register that names no node, and a span
that ends too soon. -/
theorem test_node_copies :
    let s := { s11 with mem := pokeAll s11.mem [(0xA0020080, 0x4040000040400000)] }
    let fs := fun (op node first : Nat) => [op, 9, node, 0xC000 + first, 1, 0, 0, 3]
    copied .cpyn [0x0600, 9, 1, 0xC000, 1, 0, 0, 0] s 0x800 (fun t => t.curCore.spPeek 128 8 == 0x4040000040400000) ∧
    copied .cpynw (fs 0xC600 2 4) { s with mem := pokeAll s.mem [(0xA0050080, 5)] } 0x2000 (fun t => t.peek64 0xA0050080 == 0) ∧
    moved .cpyn (fs 0x0600 4 0) s [.sreg 9 0x17] ∧ moved .cpyn (fs 0x0600 1 1) s [.sreg 9 5] ∧ moved .cpynw (fs 0xC600 1 0) s [.sreg 9 0xB] := by
  decide +kernel

/-- OwnershipAndPartitionCommands: a MOVE_GROUP to nobody waits while a node lies in the group, then the group leaves its partition, then
the command ends. -/
theorem test_losing_a_group :
    let s := fun (ns : List (Nat × Option Node)) => { s11 with mgmt := { s11.mgmt with running := some { code := 0, parts := [0], group := some 0, src := some 0 } }, nodes := ns, index := [] }
    leaves .partCmdComplete (s [(0xA0000000, some node1)]) (s [(0xA0000000, some node1)]) ∧
    after .partCmdComplete (s []) (fun t => (t.part 0).groups == 0 && t.mgmt.running.map (·.gaveUp) == some true &&
      after .partCmdComplete t (fun u => u.mgmt.running.isNone && u.mgmt.partCode == 0)) := by
  decide +kernel

/-- s5 at an AXBEGIN whose region of one input v4, one output v3 and predicate 2 (lane 0) ends at once, five words on. -/
def s12 : State :=
  let s := s5.setCur { s5.cur with p := [(2, 1)], v := [(256, 0x3F800000)], axEnable := true, waits := some { instr := .axbegin 5, since := 0 } }
  { s with fabric := 1, mem := pokeAll s.mem [(0x80000000, 0x00090001B0000005), (0x80000008, 0x0000000300000004), (0x80000010, 0xB100000000000002)] }
/-- A slot of that region: y = 2x + 1, its last check three executions ago. -/
def slot1 (state : ChurnState) (count : BitVec 32) : ChurnSlot :=
  { part := 0, pa := 0x80000000, digest := digestOf [], stamp := 3, epsAbs := 0, epsRel := 0, lr := 0x3F800000, batch := 1, window := 1, sample := 2,
    limit := 1, ni := 1, no := 1, layers := 0, width := 0, state := state, params := [0x40000000, 0x3F800000], count := count, frames := [0x8000] }
def withSlot (x : ChurnState) (count : BitVec 32) : State := { s12 with churn := [(0, some (slot1 x count))] }
def latch1 (mode : AxMode) (slot : Nat) (l : Option Latch) : Bool :=
  match l with | some l => l.mode == mode && l.slot == slot && l.lanes == [(0, [0x3F800000])] && l.endPc == 0x80000014 | none => false

/-- RegionsOfTheChurn: AXBEGIN in each mode, and what it refuses. -/
theorem test_regions :
    after (.axbegin 5) (s12.setCur { s12.cur with axEnable := false }) (fun t => (match t.cur.latch with | some l => l.mode == .plain | none => false) && t.cur.pc == 0x80000014) ∧
    after (.axbegin 5) s12 (fun t => latch1 .capture 0 t.cur.latch && (t.slot 0 0).map (·.state) == some .observe) ∧
    after (.axbegin 5) (withSlot .substitute 4) (fun t => latch1 .check 0 t.cur.latch && (t.cur.latch.map (·.yhat)) == some [[0x40400000]]) ∧
    after (.axbegin 5) (withSlot .substitute 3) (fun t => t.cur.latch.isNone && t.cur.pc == 0x80000018 && SMap.get 0 t.cur.v 192 == 0x40400000) ∧
    raised (.axbegin 4) s12 0x1E 0x80000000 ∧ raised (.axbegin 0xFFFFFF) s12 0x1E 0x80000000 ∧ raised (.axbegin 6) s12 0x1E 0x80000000 ∧
    raised (.axbegin 5) (s12.setCur { s12.cur with axWindow := 0 }) 0x1E 0x80000000 ∧
    after (.axbegin 5) { s12 with churn := (List.range 64).map (fun k => (k, some { slot1 .train 0 with pa := 4 })) } (fun t => (t.cur.latch.map (·.mode)) == some .plain) := by
  decide +kernel

/-- RegionsOfTheChurn: a slot with the region's key is found, whatever its state. -/
theorem test_slot_found (x : ChurnState) (n : BitVec 32) : (withSlot x n).slotOf 0 0 0x80000000 (digestOf []) = some (0, slot1 x n) := by
  simp only [withSlot, slot1]
  generalize digestOf [] = d
  simp [State.slotOf, State.slot, SMap.get, List.range, List.range.loop]

def latchOf (mode : AxMode) (yhat : Lane) : Latch :=
  { mode := mode, endPc := 0x80000014, start := 0x80000000, die := 0, slot := 0, stamp := 3, width := 1, outs := [3], lanes := [(0, [0x3F800000])], yhat := [[yhat]] }
/-- s12 inside its region, at the AXEND. -/
def inRegion (mode : AxMode) (st : ChurnState) (yhat : Lane) : State :=
  (withSlot st 0).setCur { (withSlot st 0).cur with pc := 0x80000014, latch := some (latchOf mode yhat) }

/-- RegionsOfTheChurn: AXEND, and what a capture does to its slot in each state. -/
theorem test_region_ends :
    after .axend s12 (fun t => t.cur.level == 1 && bits t.cur.cause 0 8 == 0x1E) ∧
    raised .axend ((inRegion .plain .observe 0).setCur { (inRegion .plain .observe 0).cur with pc := 0x80000004 }) 0x1E 0x80000000 ∧
    after .axend (inRegion .plain .observe 0) (fun t => t.cur.latch.isNone && t.captures.isEmpty) ∧
    after .axend (inRegion .capture .observe 0) (fun t => (SMap.get [] t.captures 0).map (fun k => (k.samples, k.check, k.failed)) == [([([0x3F800000], [0])], false, false)] &&
      after (.churnCapture 0) { t with fabric := 2 } (fun u => (u.slot 0 0).map (fun c => (c.state, c.steps, c.buffer.length)) == some (.train, 1, 1) && u.captures.isEmpty)) ∧
    after .axend { inRegion .capture .observe 0 with captures := [(0, List.replicate 16 { slot := 0, stamp := 3, samples := [], check := false, failed := false, bank := 0, time := 0 })] } (fun t => t.cur.waits.isSome) ∧
    after .axend (inRegion .check .substitute 0x3F800000) (fun t => (SMap.get [] t.captures 0).map (·.failed) == [true] &&
      after (.churnCapture 0) { t with fabric := 2 } (fun u => (u.slot 0 0).map (fun c => (c.state, c.fallbacks)) == some (.invalid, 1))) ∧
    after .axend (inRegion .check .substitute 0) (fun t => after (.churnCapture 0) { t with fabric := 2 } (fun u => (u.slot 0 0).map (·.state) == some .substitute)) ∧
    after .axend (inRegion .check .fallback 0x3F800000) (fun t => after (.churnCapture 0) { t with fabric := 2 } (fun u =>
      (u.slot 0 0).map (fun c => (c.state, c.steps, c.fallbacks, c.buffer.length)) == some (.fallback, 0, 0, 1))) ∧
    after (.churnCapture 0) { withSlot .observe 0 with captures := [(0, [{ slot := 0, stamp := 4, samples := [], check := false, failed := false, bank := 0, time := 0 }])] } (fun t => t.captures.isEmpty && t.churn == (withSlot .observe 0).churn) := by
  decide +kernel

/-- RegionsOfTheChurn: AXINV and AXSTAT of a region, of none, and of an odd address. -/
theorem test_region_state :
    let s := regs { s12 with churn := [(0, some { slot1 .fallback 0 with pa := 0x80000008 }), (2, some (slot1 .train 0)), (5, some (slot1 .invalid 0))] } [(8, 0x80000000), (9, 0x80000002), (10, 0x80000010)]
    after (.axstat 12 8) s (fun t => t.reg 12 == 2 * 2 ^ 24 + 2 ^ 15 + 2 * 2 ^ 8 + 2) ∧ after (.axstat 12 10) s (fun t => t.reg 12 == 0) ∧
    raised (.axstat 12 9) s 0x08 0x80000002 ∧ raised (.axinv 9) s 0x08 0x80000002 ∧
    after (.axinv 8) s (fun t => t.churn.map (·.1) == [0] && t.cur.pc == 0x80000004) ∧ after (.axinv 10) s (fun t => t.churn == s.churn) := by
  decide +kernel

/-! ## Pages, jobs, the host, the device -/

/-- s1 after a load through h3, whose handle has failed with PAGE, with a waiting record of width 1 that bank B may run. -/
def faulted : State :=
  let w : Waiting := { crec := { w0 := 0x80000000, w2 := 0xFFFF004000000000 }, s1 := 5, s2 := 1, asid := 0, enqTime := 0, order := 4 }
  match exec (.ldd 9 3 0) (s1.setPart 0 { s1.part 0 with waiting := [w], nextOrder := 5 }) with
  | .next t => t
  | _ => s1

/-- PageFaultsSwitchBanks: bank A waits, drains, bank B starts a record, and A resumes once its request is answered and B is empty. -/
theorem test_page_fault :
    (faulted.cur.page.map (fun w => (w.ids, w.handle))) = some ([1], 3) ∧ (faulted.part 0).requests.map (·.id) = [1] ∧ faulted.unitA 0 = some programUnit ∧
    faulted.mustDrain programUnit = true ∧ faulted.atRest 0 = true ∧
    after (.pageFaultDrain 0) faulted (fun t => (t.cluster 0).activeB && (t.bank 1).pc == 0x80000000 && (t.part 0).waiting.isEmpty && (t.bank 0).page.map (·.drained) == some true &&
      leaves (.bankAResume 0) t t &&
      after (.pageAnswerRetry 0 1) { t with now := 5000 } (fun u => (u.bank 0).page.map (·.ids) == some [] && ((u.bank 0).handle 3).state == .pending &&
        after (.bankAResume 0) (u.setBank 1 {}) (fun v => !(v.cluster 0).activeB && (v.bank 0).page.isNone && (match (v.bank 0).unit with | some x => x.commitTime == 5000 | none => false))) &&
      after (.pageAnswerFail 0 1) t (fun u => (u.bank 0).page.map (·.failed) == some true && (u.part 0).requests.isEmpty)) ∧
    after (.pageAnswerRetry 0 7) faulted (fun t => (t.part 0).requests.length == 1) ∧
    after (.pageFaultDrain 0) s1 (fun t => !(t.cluster 0).activeB) ∧ after (.pageFaultDrain 5) s1 (fun t => t.clusters == s1.clusters) := by
  decide +kernel

/-- PageFaultsSwitchBanks: a request times out at 10,000,000 µs and not before; a copy's request is answered. -/
theorem test_page_requests :
    let c := s1.setPart 0 { s1.part 0 with requests := [{ id := 2, job := 0, bank := 0, va := 0, time := 0, copy := true }], answers := [{ bank := 0, progress := 0, request := 2, answered := false, failed := false }] }
    after (.pageRequestTimeout 0 1) { faulted with now := 10000000000 } (fun t => (t.part 0).requests.isEmpty && t.cur.page.map (·.failed) == some true) ∧
    after (.pageRequestTimeout 0 1) { faulted with now := 9999999999 } (fun t => (t.part 0).requests.length == 1) ∧
    after (.pageAnswerFail 0 2) c (fun t => (t.part 0).answers.map (fun a => (a.answered, a.failed)) == [(true, true)]) ∧
    after (.pageAnswerRetry 0 2) c (fun t => (t.part 0).answers.map (fun a => (a.answered, a.failed)) == [(true, false)]) := by
  decide +kernel

/-- A job for slot 1 with its context in the program's page, at 0x80002000. -/
def jobRecord : JobRecord :=
  { format := 1, slot := 1, flags := 0, frameSize := 0, frameVa := 0, first := { w0 := 0x80000000, w2 := 0xFFFF000000000000, w3 := 0x0100000000000000 }
    job := { programJob with ctx := 0x80002000 } }
def fault0 (s : State) : Nat := s.peek (s.regionBase 0 + 0x20000) 1

/-- JobsHostTrafficAndHarvest: admission in each of its outcomes. -/
theorem test_admission :
    ((s0.admission 0 jobRecord).job 0 1).isSome = true ∧ ((s0.admission 0 jobRecord).bank 2).unit.map (fun u => (u.crec.job, u.s2)) = some (1, 1) ∧
    (s0.checkJob 0 jobRecord).2.1 = 0 ∧
    fault0 ((s0.setPart 0 { s0.part 0 with groups := 0 }).admission 0 jobRecord) = 0x07 ∧
    fault0 (s0.admission 0 { jobRecord with slot := 0 }) = 0x11 ∧ fault0 (s0.admission 0 { jobRecord with format := 2 }) = 0x11 ∧
    fault0 (s0.admission 0 { jobRecord with job := { jobRecord.job with asid := 9 } }) = 0x06 ∧
    fault0 (s0.admission 0 { jobRecord with job := { jobRecord.job with ctx := 0x80002800 } }) = 0x08 ∧
    fault0 (s0.admission 0 { jobRecord with job := { jobRecord.job with ctx := 0x40000000 } }) = 0x07 ∧
    fault0 (s0.admission 0 { jobRecord with job := { jobRecord.job with doneOff := 0x3FFF8 } }) = 0x06 := by
  decide +kernel

/-- JobsHostTrafficAndHarvest: the notify line with no record, one, 256 and 257 records; a VF reset. -/
theorem test_notify :
    let s := fun (tail : BitVec 32) => ({ s0.setMbox32 0 0 tail with notified := [(0, true)] } : State)
    s0.boundTo 0 = some 0 ∧ s0.boundTo 1 = none ∧
    after (.jobRingNotify 0) (s 0) (fun t => t.notified.isEmpty && t.mbox32 0 0x100 == 0) ∧
    after (.jobRingNotify 0) (s 1) (fun t => t.mbox32 0 0x100 == 1 && fault0 t == 0x11) ∧
    after (.jobRingNotify 0) (s 257) (fun t => t.mbox32 0 0x100 == 0 && fault0 t == 0x11) ∧ after (.jobRingNotify 0) s0 (fun t => t.mem == s0.mem) ∧
    after (.vfFlr 0) (s 1) (fun t => t.mbox32 0 0 == 0 && (t.counter 0 programJob .job 0).state == 3) ∧ after (.vfFlr 1) (s 1) (fun t => t.mbox32 0 0 == 1) := by
  decide +kernel

/-- JobsHostTrafficAndHarvest: writes and reads of the host and of a peer, over plain bytes, a sealed object, a tagged header and a bad sector. -/
theorem test_host_traffic :
    let s := { s3 with records := [{ header := 0x90001000, owner := 0, sealed := true, lines := [(0x1200020, 1)] }], tags := SMap.set false s3.tags 0x12000005 true, liveRegions := setTags s3.liveRegions true [0x900] }
    let bad := { s with badSectors := [(0x90000008 / 32, true)], lineMeta := [(0x1200000, { live := true, enc := 7 })] }
    s.behind 0x90000008 = true ∧ s.sealedAt 0x90001008 1 = true ∧ s.headerAt 0x90000100 8 = true ∧
    after (.hostMemoryWrite 0x90000028 [1, 2]) s (fun t => t.peek 0x90000028 2 == 0x0201 && !t.tagAt 0x90000028 && t.tagAt 0x90000020) ∧
    after (.hostMemoryWrite 0x90001008 [1]) s (fun t => t.byte 0x90001008 == 0 && t.mgmt.rasLog.length == 1) ∧
    after (.hostMemoryWrite 0x90000104 [1]) s (fun t => t.byte 0x90000104 == 0 && t.mgmt.rasLog.length == 1) ∧
    after (.hostMemoryWrite (s.regionBase 0) [1]) s (fun t => SMap.get false t.notified 0) ∧
    after (.hostMemoryRead 0x90000100 2) s (fun t => t.signals == [.hostData [0x1F, 0]]) ∧ after (.hostMemoryRead 0x90000008 1) bad (fun t => t.signals.getLast? == some .hostPoison) ∧
    s.linked = true ∧ after (.peerMemoryRequest 0x90000100 2 {}) s (fun t => t.signals == [.peerData [0x1F, 0] [true]]) ∧
    (let z : PeerSync := { device := 3, core := 1, scope := 3, mode := 2 }
     after (.peerMemoryRequest 0x90000040 8 { sync := some z }) s (fun t => (t.scopeAt 0x1200000).map (fun r => (r.scope, r.device, r.core)) == some (3, 3, 1) &&
       after (.peerMemoryRequest 0x90000040 8 { sync := some { z with device := 4 } }) t (fun u => u.signals.getLast? == some (.peerFault 0x0E)))) ∧
    after (.peerMemoryRequest 0x90000040 0 { store := some [0, 1, 0, 0x90, 0, 0, 0, 0], tags := [true] }) s (fun t => t.tagAt 0x90000040 && t.peek64 0x90000040 == 0x90000100) ∧
    after (.peerMemoryRequest 0x90001008 1 { store := some [1] }) s (fun t => t.signals == [.peerFault 0x0B] && t.byte 0x90001008 == 0) ∧
    after (.peerMemoryRequest 0x90000040 1 { store := some [7] }) s (fun t => t.byte 0x90000040 == 7) ∧
    after (.patrolScrub 0x1200000) bad (fun t => t.scrubs == [{ line := 0x1200000, bad := true, soft := false }] &&
      after (.patrolScrub 0x1200000) t (fun u => u.mgmt.ueFound == 1 && (u.lineInfo 0x1200000).poison && u.scrubs.isEmpty) &&
      after (.patrolScrub 0x1200000) (t.store [(0x90000040, 9)]) (fun u => u.mgmt.ueFound == 0 && u.scrubs.isEmpty)) ∧
    after (.patrolScrub 0x1200000) { bad with badSectors := [], softSectors := [(0x90000008 / 32, true)] } (fun t =>
      after (.patrolScrub 0x1200000) t (fun u => u.mgmt.ceFound == 1 && u.softSectors.isEmpty)) ∧
    after (.patrolScrub 0x1300000) bad (fun t => t.mgmt == bad.mgmt) := by
  decide +kernel

/-- JobsHostTrafficAndHarvest: HARVEST and REVOKE of the program's page and of none, REVOKE_ALL, busy, and its end. -/
theorem test_harvest :
    let s := { s1 with written := [(0x9000, true)] }
    let w := fun (op va : Nat) => BitVec.ofNat 64 (va / 65536 * 2 ^ 23 + op * 16)
    let leaf := fun (t : State) => t.peek64 0x20008
    (s.findLeaf 0 0 0x90000000).2.isSome = true ∧
    after (.harvest (w 1 0x90000000)) s (fun t => bits t.mgmt.harvest 0 4 == 1 && leaf t == 0x800004FF && t.written.map (·.1) == [2] &&
      after (.harvest 0) t (fun u => u.mgmt == t.mgmt) && after .harvestCommandDone t (fun u => bits u.mgmt.harvest 0 4 == 0)) ∧
    after (.harvest (w 1 0x10000)) s (fun t => bits t.mgmt.harvest 0 4 == 5) ∧
    after (.revoke (w 2 0x90000000)) s (fun t => leaf t == 0x100000800000FF && (t.cur.handle 1).state == .invalid) ∧
    after (.revoke (w 2 0x10000)) s (fun t => (t.cur.handle 1).state == .valid) ∧
    after (.revokeAll (w 3 0)) s (fun t => (t.cur.handle 1).state == .invalid && (t.cur.handle 4).state == .invalid && (t.cur.handle 2).revoked) := by
  decide +kernel

/-- JobsHostTrafficAndHarvest: a fail bit set, cleared and rebuilt, and vat_idle. -/
theorem test_core_registers :
    after (.spFailedWrite 3 0x27) s0 (fun t => (t.core 3).spFailed == 0x27 && after (.spFailedWrite 3 0) t (fun u => (u.core 3).spFailed == 0x20 && (u.core 3).rebuild0 == some 7 &&
      after (.scratchpadRebuildDone 3 false) u (fun v => (v.core 3).spFailed == 0 && (v.core 3).rebuild0.isNone))) ∧
    after (.scratchpadRebuildDone 3 true) s0 (fun t => t.cores == s0.cores) ∧
    after (.vatIdleWrite 3 0x900000005) { s0 with cycles := 9 } (fun t => (t.core 3).vat.idle == 5 && (t.core 3).vat.idleFrom == 9) := by
  decide +kernel

/-- JobsHostTrafficAndHarvest: the words of a job ring, an entry of it and the five registers of a reset meet nothing. -/
theorem test_mailbox_meets_nothing :
    let a := s0.regionBase 0
    s0.behind a = true ∧ s0.behind (a + 0x100) = true ∧ s0.readFault (a + 0x100) 4 = (s0, none) ∧ s0.behind (a + 0x10000) = true ∧
    s0.readFault (a + 0x10000) 128 = (s0, none) ∧ s0.writeFault (a + 0x80) 4 = (s0, none) ∧
    (∀ l ∈ linesOf (a + 0x80) 4, ∀ k ∈ s0.blockLines l, SMap.get false s0.badMetaBlocks k = false) := by
  decide +kernel

/-- PageFaultsSwitchBanks: a bank B takes a record while its unit waits for a page, and none once the answer is in and every bank B is empty. -/
theorem test_bank_b :
    after (.pageFaultDrain 0) faulted (fun t => !t.resumeDue 0 && after (.pageAnswerRetry 0 1) t (fun u =>
      !u.resumeDue 0 && (u.setBank 1 {}).resumeDue 0 && decide ((u.setBank 1 {}).popB 0 0 = u.setBank 1 {}))) ∧
    (faulted.coreIn 0 0 = true ∧ (faulted.orderOf 0).length = 1) := by
  decide +kernel

/-- s0 owned by the BMC since time 0, function slot 1 staged for partition 1. -/
def owned : State := { s0.setPart 1 { s0.part 1 with staged := { ctl := some 0x100 } } with mgmt := { s0.mgmt with owner := 3 } }
def cmd (op src dest unit : Nat) : BitVec 64 := BitVec.ofNat 64 (op + src * 2 ^ 16 + dest * 2 ^ 20 + unit * 2 ^ 32)

/-- OwnershipAndPartitionCommands: who may write own_cmd and what each command does; writes of a master that is not the owner. -/
theorem test_ownership :
    let away := { s0 with fuses := { s0.fuses with hostPorts := 2 } }
    s0.booted = true ∧ s0.hasMaster .pfA = true ∧ away.hasMaster .pfA = false ∧ after (.claim .pfA) away (fun t => t.mgmt.owner == 0) ∧
    after (.claim .pfA) { s0 with now := 7 } (fun t => t.mgmt.owner == 1 && t.mgmt.hbSince == 7) ∧ after (.claim .pfA) owned (fun t => t.mgmt.owner == 3) ∧
    after (.release .bmc) owned (fun t => t.mgmt.owner == 0) ∧ after (.release .pfB) owned (fun t => t.mgmt.owner == 3) ∧
    after (.heartbeat .bmc) { owned with now := 7 } (fun t => t.mgmt.hbSince == 7) ∧
    after (.handover .bmc 1) owned (fun t => t.mgmt.handoverTarget == 1 && after (.accept .pfA) t (fun u => u.mgmt.owner == 1 && u.mgmt.handoverTarget == 0)) ∧
    after (.handover .bmc 3) owned (fun t => t.mgmt.handoverTarget == 0) ∧ after (.accept .pfA) owned (fun t => t.mgmt.owner == 3) ∧
    after (.managementRegisterWrite .pfA 8 1) s0 (fun t => t.mgmt.owner == 1) ∧ after (.managementRegisterWrite .bmc 0x500 1200) owned (fun t => t.mgmt.limitW == 1200) ∧
    after (.managementRegisterWrite .bmc 0x500 1200) { owned with mgmt := { owned.mgmt with owner := 1 } } (fun t => t.mgmt.refused == 1 && t.signals == [.mctpError]) ∧
    (let g := { owned.mgmt with rasLog := [(3, { addr := 5 })], rasUnread := [(3, true)] }
     (({ owned with mgmt := g } : State).mgmtRead 0x838).1.mgmt.rasUnread = [] ∧ (({ owned with mgmt := g } : State).mgmtRead 0x830).2 = 5) ∧
    after (.managementRegisterWrite .pfA 0x500 1200) owned (fun t => t.mgmt.limitW == 2600 && t.mgmt.refused == 1 &&
      after (.refusedWritesRead .pfB) t (fun u => u.mgmt.refused == 0 && u.signals == [.readData 1])) ∧
    after (.pfFlr true) { s0 with mgmt := { s0.mgmt with owner := 2 } } (fun t => t.mgmt.owner == 0) ∧ after (.pfFlr true) owned (fun t => t.mgmt.owner == 3) ∧
    after .ownershipLapse { owned with now := 10000000000 } (fun t => t.mgmt.owner == 0 && t.mgmt.lapseCount == 1 && t.signals.length == 3) ∧
    after .ownershipLapse { owned with now := 9999999999 } (fun t => t.mgmt.owner == 3) := by
  decide +kernel

/-- OwnershipAndPartitionCommands: CREATE, APPLY, DESTROY, their refusals, and a move of a free island to partition 0. -/
theorem test_partitions :
    let create := cmd 1 0 1 0
    let done := fun (s : State) (p : State → Bool) => after .partCmdComplete s p
    owned.checkCommand create = 0 ∧ owned.checkCommand (cmd 1 0 0 0) = 2 ∧ owned.checkCommand (cmd 2 1 0 0) = 3 ∧ owned.checkCommand (cmd 5 0 1 0) = 3 ∧
    owned.checkCommand (cmd 2 0 0 0) = 7 ∧ owned.checkCommand 0 = 1 ∧ owned.checkCommand (cmd 3 0 0 16) = 1 ∧
    after (.partCreate .bmc create) owned (fun t => (t.part 1).live && t.mgmt.running.isSome && (t.mgmtRead 0x108).2 == 1 &&
      after (.partCreate .bmc (cmd 1 0 2 0)) t (fun u => !(u.part 2).live) &&
      done t (fun u => u.mgmt.running.isNone && u.mgmt.partCode == 0 && u.signals == [.notify 2 u.partStatus] &&
        after (.partDestroy .bmc (cmd 2 1 0 0)) u (fun v => !(v.part 1).live))) ∧
    after (.partCreate .bmc (cmd 1 0 0 0)) owned (fun t => done t (fun u => u.mgmt.partCode == 2)) ∧
    after (.partApply .bmc (cmd 5 0 0 0)) (owned.setPart 0 { owned.part 0 with staged := { bwDepth := some 2 } }) (fun t => (t.part 0).bwDepth == 2 && ((t.part 0).bucket 0 t.now).count == 8192) ∧
    after (.moveIsland .bmc (cmd 3 0 0 5 + 16)) owned (fun t => t.mgmt.running.map (·.island) == some (some 5) && t.islandQuiet 5) ∧
    after (.moveGroup .bmc (cmd 4 0 0 0 + 32)) owned (fun t => bits (t.part 0).groups 0 1 == 0 && t.mgmt.running.map (·.group) == some (some 0)) := by
  decide +kernel

/-- PowerMessagesAndBoot: domain requests, gating, throttling, restoring, the shutdown and a bucket. -/
theorem test_power :
    let dom := fun (t : State) (i : Nat) => SMap.get 0 t.mgmt.domState i
    let mhz := fun (t : State) (i : Nat) => (SMap.get 1250 t.mgmt.domMhz i).toNat
    after (.pwrDomReq .bmc 0 2) owned (fun t => dom t 0 == 0) ∧ after (.pwrDomReq .bmc 5 2) owned (fun t => dom t 5 == 2 && after (.pwrDomReq .bmc 5 1) t (fun u => dom u 5 == 0)) ∧
    after (.pwrDomReq .bmc 5 3) owned (fun t => t.mgmt == owned.mgmt) ∧
    after (.islandClockGate 5) owned (fun t => dom t 5 == 1) ∧ after (.islandClockGate 0) owned (fun t => dom t 0 == 0) ∧ after (.islandClockGate 16) owned (fun t => dom t 16 == 0) ∧
    after (.thermalThrottle 2601 0) owned (fun t => mhz t 0 == 1225 && t.mgmt.capped && t.signals.length == 1) ∧ after (.thermalThrottle 2600 99) owned (fun t => mhz t 0 == 1250 && !t.mgmt.hot) ∧
    after (.thermalThrottle 0 100) owned (fun t => mhz t 0 == 1225 && mhz t 4 == 1250 && t.mgmt.hot &&
      after (.clockRestore 0 0) { t with now := 9999999 } (fun u => mhz u 0 == 1225) && after (.clockRestore 0 0) { t with now := 10000000 } (fun u => mhz u 0 == 1250 && !u.mgmt.hot)) ∧
    after (.criticalShutdown 110) owned (fun t => !t.powered && t.mgmt.critical) ∧ after (.criticalShutdown 109) owned (fun t => t.powered) ∧
    after (.bucketRefill 0 .cxl) { (owned.setPart 0 { owned.part 0 with bwCxl := 3, buckets := [(1, { count := -5, since := 0 })] }) with now := 10 } (fun t => SMap.get {} (t.part 0).buckets 1 == { count := 25, since := 10 }) := by
  decide +kernel

/-- PowerMessagesAndBoot: management reads and writes over MCTP, and the messages the device answers or refuses. -/
theorem test_messages :
    let d : BootImage := { code := [1], key := [2], keyIndex := 0, version := 4, signature := [] }
    let fused := { owned with fuses := { owned.fuses with keyDigests := [(0, shakeDigest [2])] } }
    let answer := fun (t : State) => t.signals.length == 1 && t.freeNo == 1
    after (.mctpRead 0x500) owned (fun t => t.signals == [.mctpData 2600]) ∧ after (.mctpWrite 0x500 1200) owned (fun t => t.mgmt.limitW == 1200 && t.signals == [.reply "WRITE" []]) ∧
    after (.mctpWrite 0x500 1200) s0 (fun t => t.mgmt.limitW == 2600 && t.signals == [.mctpError]) ∧
    after .getEndpointId owned answer ∧ after (.setEndpointId 9) owned (fun t => t.mgmt.eid == 9) ∧ after .getMctpVersionSupport owned answer ∧ after .getMessageTypeSupport owned answer ∧
    after .getVendorDefinedMessageSupport owned answer ∧ after .getVersion owned answer ∧ after .getCapabilities owned answer ∧ after .getDigests owned answer ∧
    after (.negotiateAlgorithms 1 2) owned (fun t => t.mgmt.spdmNegotiated) ∧ after (.negotiateAlgorithms 1 1) owned (fun t => t.signals == [.spdmError .unsupportedRequest]) ∧
    after (.getCertificate 0) owned answer ∧ after (.getCertificate 1) owned (fun t => t.signals == [.spdmError .invalidRequest]) ∧ after (.challenge 0 5) owned answer ∧
    after (.challenge 1 5) owned (fun t => t.signals == [.spdmError .invalidRequest]) ∧ after (.getMeasurements 0) owned answer ∧
    after (.getMeasurements 5) owned answer ∧
    after (.powerOn [d]) owned (fun t => !t.booted && t.mgmt.bootResult == 1 && t.banks.isEmpty && t.byte 0x80000000 == 0) ∧
    after (.powerOn [d, d]) fused (fun t => t.mgmt.bootStage == 0 && t.mgmt.bootResult == 1 && t.mgmt.measurements == []) ∧
    after (.powerOn [d]) { fused with fuses := { fused.fuses with revoked := 1 } } (fun t => t.mgmt.bootStage == 0 && t.mgmt.bootResult == 2) := by
  decide +kernel

/-- ResetLeavesTheSpecsValues, on cluster 0. -/
theorem test_reset :
    let s := State.reset
    (∀ e ∈ ([(0x011, 1), (0x110, 0x8000000000000400), (0x200, 0x3A800000), (0x203, 64), (0x240, 15), (0x300, 1000), (0x304, 100000), (0x802, 0x3E801)] : List (Nat × BitVec 64)), s.crValue e.1 = e.2) ∧
    (∀ k < 22, s.crValue (0x120 + k) = 2) ∧ (s.mgmtRead 0x1570).2 = 0x989680000F4240 ∧ (s.mgmtRead 0x510).2 = BitVec.ofNat 64 (675 * 2 ^ 32 + 1250 * 2 ^ 8) ∧ s.cur.slot 63 = 0xFF00 := by
  decide +kernel

/-- MemoryStaysCanonical: a state that lists memory, and a step from it that writes. -/
theorem test_memory_canonical :
    Memory.wf s2.mem = true ∧ (match step { s2 with agenda := [.event (.hostMemoryWrite 0x90000008 [0])] } with | .next t => Memory.wf t.mem && t.byte 0x90000008 == 0 | _ => false) = true := by
  decide +kernel

/-! ## Clauses at their boundaries -/

/-- s with late stores of its bank under way. -/
def withLate (pas : List Nat) (s : State) : State := s.setCur { s.cur with late := pas.map (fun pa => { pa := pa, va := BitVec.ofNat 64 pa, bytes := [7] }) }
/-- s with an uncorrectable error in the Crock's word for an address. -/
def withBadCrock (pa : Nat) (s : State) : State := { s with badCrock := [(pa / 8, true)] }
/-- The bank waits at the instruction. -/
def waitsAt (i : Instr) (s : State) : Bool := after i s (fun t => t.cur.waits.isSome && t.cur.pc == s.cur.pc && t.mem == s.mem)

/-- ReferencesKeepTheirTags: a scratchpad tag whose code corrects one flip and not two. -/
theorem test_spad_tags :
    let s := fun (flips : SMap Bool) => (spadWith s1 (cellsAt 32 (toBytes 8 0x90000100))).setCurCore
      { (spadWith s1 (cellsAt 32 (toBytes 8 0x90000100))).curCore with spadTags := [(4, true)], tagFlips := flips }
    after (.ldref 10 0 4) (s []) (fun t => t.reg 10 == 0x90000100) ∧
    after (.ldref 10 0 4) (s [(5, true)]) (fun t => t.reg 10 == 0x90000100 && t.curCore.tagFlips.isEmpty) ∧
    raised (.ldref 10 0 4) (s [(5, true), (6, true)]) 0x19 32 ∧ raised (.ldref 10 0 5) (s []) 0x0C 40 ∧
    after (.ldref 10 0 4) (s [(64, true), (65, true)]) (fun t => t.reg 10 == 0x90000100) := by
  decide +kernel

/-- ReferencesKeepTheirTags: STREF of PRIVATE headers, and OBJINIT of no size and at a Crock with an error. -/
theorem test_reference_checks :
    let s := fun (header : Nat) => { regs s3 [(8, 0x90000100), (9, 4), (10, 0)] with mem := pokeAll s3.mem [(0x90000100, header)] }
    raised (.stref 8 1 5) (s 0x100000004000F) 0x0A 0x90000100 ∧ raised (.stref 8 1 5) (s 0x4000F) 0x09 0x90000028 ∧
    after (.stref 8 0 2) (s 0x4000F) (fun t => t.curCore.spPeek 16 8 == 0x90000100 && t.curCore.spTag 16) ∧
    raised (.objinit 10 1 32) (s 0x4001F) 0x0C 0x90000200 ∧ raised (.objinit 9 1 32) (withBadCrock 0x90000200 (s 0x4001F)) 0x19 0x90000200 ∧
    raised (.monitor 1 1) (withBadCrock 0x90000008 s2) 0x19 0x90000008 := by
  decide +kernel

/-- FencesWaitForWhatIsOutgoing, QueueRegisters, AcquireLoadsAndReleaseStores, AtomicsReadModifyWrite, RingsHandOutSlotsInOrder,
PubPublishesBeforeItStores: a store that has not reached the L1, to the tier's neighbour or to host memory. -/
theorem test_late_stores :
    let l := withLate [0x90000040]
    let h := withLate [hostBase + 64]
    let s := regs s2 [(5, 8), (8, 1), (9, 16)]
    waitsAt (.fenceFull 3) (l s) ∧ waitsAt (.fenceSs 3) (l s) ∧ after (.fenceLl 3) (l s) (fun t => t.cur.pc == 0x80000004) ∧
    waitsAt (.fenceFull 5) (h s) ∧ after (.fenceFull 3) (h s) (fun t => t.cur.pc == 0x80000004) ∧ after (.fenceSs 5) (h s) (fun t => t.cur.pc == 0x80000004) ∧
    (∀ i ∈ ([.strel 8 1 9 3 3, .aadd 8 1 5 1 3 2, .acas 8 1 5 1 3 3, .aswp 8 1 5 1 3 2, .qpush 8 3, .pub 0 1 5 3, .flset 8 1 5 3 2, .fladd 8 1 5 3 2,
      .fladd 8 0 5 3 2, .flsetCoreFlag 8 3] : List Instr), waitsAt i (l s)) ∧
    (∀ i ∈ ([.aadd 8 1 5 1 3 0, .acas 8 1 5 1 3 1, .fladd 8 1 5 3 0, .fladd 8 0 5 3 0, .flset 8 1 5 3 0] : List Instr),
      after i (l s) (fun t => t.cur.pc == 0x80000004)) ∧
    waitsAt (.fladd 8 1 5 3 0) (withLate [0x9000000F] s) ∧ waitsAt (.ldb 9 1 64) (l s) ∧
    waitsAt (.rpost 8 0 1) (l (regs (ring 3 4 5) [(8, 0x400000100)])) ∧ waitsAt (.rfree 8 0 1) (l (regs (ring 3 4 5) [(8, 0x300000100)])) := by
  decide +kernel

/-- FlagsSetAddAndWait: an add behind an acquiring one, and one that fails at its Crock for each cause. -/
theorem test_add_fails :
    let s := regs s2 [(5, 8), (8, 1)]
    let f : PostedAdd := { pa := 0x90000008, va := 0x90000008, v := 1, scope := 3, order := 1, mode := 2 }
    let p := s.setCur { s.cur with fladds := [f] }
    let fails := fun (t : State) (c : Nat) => after (.fladdPerform 0) t (fun u => u.cur.fladds.isEmpty && u.cur.traps.map (fun x => (x.code.toNat, x.info)) == [(c, 0x90000008)])
    waitsAt (.fladd 8 0 5 3 0) p ∧ p.ingressOpen (p.partOfBank 0) f.pa = true ∧
    fails (withBadCrock f.pa p) 0x19 ∧ fails { p with records := [{ header := 0, owner := 9, sealed := false, lines := [(0x1200000, 1)] }] } 0x0A ∧
    fails { p with badSectors := [(0x90000008 / 32, true)], lineMeta := [(0x1200000, { live := true, enc := 7 })], liveRegions := setTags p.liveRegions true [0x900] } 0x19 ∧
    fails { p with scopes := [(0x1200000, some { scope := 0, device := 0, core := 9 })] } 0x0E ∧
    after (.fladdPerform 0) p (fun u => u.cur.traps.isEmpty && (u.scopeAt 0x1200000).map (·.scope) == some 3) := by
  decide +kernel

/-- The launch, graph, phase and job entries of the program's record. -/
def launchPa : Nat := 3221229616
/-- s with the Crocks of partition 0 full on every die. -/
def withFullCrocks (s : State) : State := { s with crockFull := [(0, true), (16, true), (32, true), (48, true)] }

/-- SpawnAndJdecCreateUnits: records that fail R41, entries whose Crock fails or has no room, a level that is full, and something on its way. -/
theorem test_spawn_checks :
    let bad := fun (join : Nat) => { withRecord join with mem := pokeAll (withRecord join).mem [(0x90000040, 0x80000003)] }
    (s1.entryPa 0 programJob .launch 0).2 = some launchPa ∧
    raised (.spawn 1 2) (withBadCrock launchPa (withRecord 0)) 0x19 0xC0001030 ∧ raised (.spawn 1 2) (withFullCrocks (withRecord 0)) 0x11 0x90000040 ∧
    waitsAt (.spawn 1 2) (withLate [0x90000100] (withRecord 0)) ∧ waitsAt (.jdec 1 2) (withLate [0x90000100] (withRecord 2)) ∧
    (∀ t ∈ [bad 1, withFullCrocks (withRecord 1)], raised (.jdec 1 2) t 0x11 0x90000040 && after (.jdec 1 2) t (fun u => u.peek 0x90000050 4 == 1)) ∧
    after (.jdec 1 2) (withBadCrock launchPa (withRecord 1)) (fun t => bits t.cur.cause 0 8 == 0x19 && t.peek 0x90000050 4 == 1 && t.badCrock.isEmpty) := by
  decide +kernel

/-- UnitsCommitYieldEndAndCancel: entries whose Crock has no room or fails, for CANCEL and DONE. -/
theorem test_entry_checks :
    let s := regs s0 [(9, 1)]
    waitsAt (.cancel 0 1) (withFullCrocks s) ∧ raised (.cancel 0 1) (withBadCrock launchPa s) 0x19 0xC0001030 ∧
    (withFullCrocks s).retireStalls 0 programUnit.crec = true ∧ waitsAt .unitDone (withFullCrocks s) ∧ waitsAt .unitDone (withLate [0x90000100] s) ∧
    after .unitDone s (fun t => t.cur.unit.isNone) := by
  decide +kernel

/-- RetirementCascades: the entry is written as a release by the core that retires, and leaves its record. -/
theorem test_retirement_records :
    ((s0.setCounter 0 programJob .launch 0 { outstanding := 1, retired := 2, parent := 3, state := 1 } (some 5)).scopeAt (launchPa / 128)) =
      some { scope := 3, device := 0, core := 5 } ∧
    (s0.setCounter 0 programJob .launch 0 { outstanding := 1, retired := 2, parent := 3, state := 1 } (some 5)).peek64 launchPa = 0x200000001 := by
  decide +kernel

/-- PlacementDiscardsAndTimers: stalls that count and waits that do not, and the member that COMMIT_BUDGET takes. -/
theorem test_stalls :
    let w := fun (why : WaitFor) (i : Instr) => s0.setCur { s0.cur with waits := some { instr := i, since := 0, why := why } }
    s0.stallCounts 0 = false ∧ (w .itself .pkwt).stallCounts 0 = true ∧ (w .itself (.mwait 9 8)).stallCounts 0 = false ∧
    (w .itself (.mwait 9 8)).waitsFreely 0 = true ∧
    (s0.setCur { s0.cur with held := true }).stallCounts 0 = true ∧ (s0.setCur { s0.cur with ending := some .done }).stallCounts 0 = true ∧
    (let g := { (gang2.setBank 0 { gang2.bank 0 with unit := (gang2.bank 0).unit.map (fun u => { u with committed := true, budget := 1 }) }).setBank 2
        { gang2.bank 2 with level := 1, trapGroup := some (2, false) } with now := 1000 }
     after (.commitBudget 0) g (fun t => (t.bank 2).traps.map (fun x => x.code) == [0x1C] && (t.bank 0).traps.isEmpty)) := by
  decide +kernel

/-- TrapCodesAndServices: a harvest for another address space has an open answer; a service in a loop's last word makes no end test. -/
theorem test_services :
    let s := regs (atLevel s0 1) [(1, 0x50)]
    let looped := (regs (atLevel s0 1) [(1, 5)]).setCur { (regs (atLevel s0 1) [(1, 5)]).cur with lc := [(0, 2)], loops := [(0, { armed := true, start := 0x80000000, last := 0x80000000 })] }
    after (.trap 0xFF2) looped (fun t => t.cur.pc == 0x80000004 && SMap.get 0 t.cur.lc 0 == 2) ∧
    after .trapPageAnswerService looped (fun t => t.cur.pc == 0x80000004 && SMap.get 0 t.cur.lc 0 == 2) ∧
    (let x := { s with mem := s.mem }
     (x.asidValid 0 (harvestAsid 0x5000)).2 = false ∧ after .trapHarvestService (regs x [(1, 0x5000)]) (fun t => t.freeNo == x.freeNo + 1 && t.mgmt == x.mgmt)) := by
  decide +kernel

/-- WideOperationsIssue, WideOperationsStartAndComplete: a store on its way holds an issue up, a packet does not; an earlier NFETCH still
has to write the register of a status word; a GMV whose sources have not been written, and one whose sources have. -/
theorem test_wide_waits :
    let add := [0x5000, 3, 0xC005, 0xC006, 0, 0, 0, 0]
    let status := (s1.setCluster 0 { qL := [{ tmpl := fieldsOf [0x0400, 9], tok := 0, seq := 0, word := 0, dests := [9], phase := .executed [.sreg 9 5] }] })
    let sources := ({ tmpl := fieldsOf [0x9000, 3], tok := 0, seq := 0, word := 0 : QEntry }).sources image1
    let view : GmvView := { binding := image1, cells := s10.curCore.columns sources, failed := [], rvfBad := [(3, true)] }
    let gmv := fun (c : Core) => (s10.setCurCore c).setCluster 0 { qC := [{ tmpl := fieldsOf [0x9000, 3], tok := 0, seq := 0, word := 0, seen := some view, phase := .executed [] }] }
    waitsAt (.patchWord 0 0 0 0 0) (withLate [0x90000100] (withTmpl s1 add)) ∧ after (.patchWord 0 0 0 0 0) (withTmpl s4 add) (fun t => t.cur.seq == 1) ∧
    (let s := status.setCur { status.cur with nfetch := [{ reg := 9, node := .empty }] }
     leaves (.wideOperationComplete 0 .L) s s) ∧
    after (.wideOperationComplete 0 .L) status (fun t => t.reg 9 == 5) ∧
    view.cells != [] ∧ view.changed s10.curCore sources = [] ∧
    after (.wideOperationComplete 0 .C) (gmv { s10.curCore with rvfBad := [(3, true)] }) (fun t => t.cur.wdone == 1 && (t.cluster 0).qC.isEmpty && t.cur.traps.isEmpty) ∧
    view.changed (s10.curCore.spCells [(135, 2)]) sources != [] := by
  decide +kernel

/-- CopiesMoveTheirElements: the nodes that a node copy takes as it starts, the node at whose loss it ends, and the table a copy takes. -/
theorem test_copy_takes :
    let fs := [0x0600, 9, 1, 0xC000, 1, 0, 0, 0]
    ran .cpyn fs s11 (fun t => match (t.cluster 0).qL with
      | [e] => e.phase == .copying 0 0 && e.nodes == [{ record := 0xA0000000, gen := 0, start := 0 }] && (e.covering t 0).map (·.2) == some 0 &&
          (let gone := { t with nodes := [] }
           (e.covering gone 0).isNone && after (.cpyn 0) gone (fun u => (u.cluster 0).qL.map (·.phase) == [.executed [.flags 0, .sreg 9 0x17]]))
      | _ => false) ∧
    moved .cpyn [0x0600, 9, 5, 0xC000, 1, 0, 0, 0] s11 [.sreg 9 5] ∧
    ran .cpyn [0x0601, 9, 3, 0xC004, 1, 0, 0, 0] s11 (fun t => t.cur.nfetch.map (·.reg) == [64] && (t.cluster 0).qL.map (·.queued) == [true]) ∧
    (let s := s2.setCurCore { s2.curCore with tabValid := 4, tab := [(33, 0x3F80)] }
     ran .cpy [0x0400, 9, 0x101, 0xC008, 1, 0, 1] s (fun t => (t.cluster 0).qL.map (fun e => (e.phase, SMap.get [] e.tables 2 == (List.range 16).map (fun k => if k = 1 then 0x3F80 else 0))) == [(.copying 0 0, true)])) := by
  decide +kernel

/-- NodesOfTheCreamery: SEAL with a store on its way, with an empty bucket, at a bad line, and over an EVICTING and a REMOTE node of its name;
a NOPEN that counts its child already; a node copy's probe without a link. -/
theorem test_creamery_waits :
    let s := s11
    let bad := { s with badSectors := [(0xA0040020 / 32, true)], lineMeta := [(0xA0040020 / 128, { live := true, enc := 7 })], liveRegions := setTags s.liveRegions true [0xA00] }
    let third := fun (st : NodeState) => { s with nodes := [(0xA0000000, some node1), (0xA0000080, some node2), (0xA0000200, some { node3 with state := st })], index := [(name1, 0xA0000000), (name2, 0xA0000200)] }
    waitsAt (.seal 6 2) (withLate [0x90000100] s) ∧ raised (.seal 6 2) bad 0x19 0xFF0000A0040020 ∧
    (∀ st ∈ [NodeState.evicting, NodeState.remote], after (.seal 6 2) (third st) (fun t => t.cur.getN 6 == .node 0xA0000080 0 &&
      t.index.map (fun x => x) == [(name1, 0xA0000000), (name2, 0xA0000080)] && (t.node 0xA0000080).map (·.collided) == some false)) ∧
    (let w := { (s.setPart 0 { s.part 0 with bwYareno := 1, buckets := [(2, { count := 0, since := 0 })] }) with nodes := [(0xA0000000, some node1), (0xA0000080, some { node2 with map := peerBase })] }
     w.ingressWaits 0 (peerBase + 32) = true ∧ after (.seal 6 2) w (fun t => t.cur.waits.map (·.why) == some .bucket)) ∧
    (let one := { s with mgmt := { s.mgmt with domCfg := 1 }, fuses := { s.fuses with linkWidth := (List.range 16).map (fun k => (k, 0)) } }
     one.linked = false ∧ one.probe (one.nodeKey node1) = none ∧ leaves (.remoteProbe name1) one one ∧ leaves (.forwardedRead name1) one one ∧
       leaves (.holderRegistration true 3 (one.nodeKey node1)) one one) := by
  decide +kernel

/-- s11 in which every Crock of partition 0 is full, or meets an error in every frame of pool 1. -/
def crowded : State := withFullCrocks s11
def ailing : State := { s11 with badCrock := (s11.poolFrames 0 1).map (fun f => (f / 8, true)) }

theorem noRoom_freeNo (s : State) (m p pa : Nat) : ({ s with freeNo := m } : State).noRoom p pa = s.noRoom p pa := rfl
theorem crockFails_freeNo (s : State) (m pa : Nat) : ({ s with freeNo := m } : State).crockFails pa = s.crockFails pa := rfl

/-- NodesOfTheCreamery: NOPEN of a child of the root finds frames whose Crocks have no room, or meet an error, whichever frames the device picks. -/
theorem test_pool_at_the_crocks :
    (∃ z r m frames, crowded.allocate 0 1 3 crowded.nodeFuel = (z, .got r (m :: frames)) ∧ z.noRoom 0 m = true) ∧
    (∃ z r m frames, ailing.allocate 0 1 3 ailing.nodeFuel = (z, .got r (m :: frames)) ∧ z.crockFails m = true) := by
  constructor
  · obtain ⟨_, r, l, h, hl, hm⟩ := State.allocate_got crowded 0 1 3 3 (by decide +kernel) (by decide +kernel)
    cases l with
    | nil => simp at hl
    | cons m frames =>
      have hx : ∀ f ∈ crowded.poolFrames 0 1, crowded.noRoom 0 f = true := by decide +kernel
      exact ⟨_, r, m, frames, h, (noRoom_freeNo _ _ _ _).trans (hx m (hm m (by simp)))⟩
  · obtain ⟨_, r, l, h, hl, hm⟩ := State.allocate_got ailing 0 1 3 3 (by decide +kernel) (by decide +kernel)
    cases l with
    | nil => simp at hl
    | cons m frames =>
      have hx : ∀ f ∈ ailing.poolFrames 0 1, ailing.crockFails f = true := by decide +kernel
      exact ⟨_, r, m, frames, h, (crockFails_freeNo _ _ _).trans (hx m (hm m (by simp)))⟩

/-- RegionsOfTheChurn: an AXBEGIN waits in the cycle in which it arrives, while its bank's own capture or one that stands before it is
pending, and behind another bank's of that cycle that stands before it, and not for one after it; a capture waits for its cycle's end and for
an AXBEGIN before it; captures stand in the order of their cycles and, in one cycle, of their banks. -/
theorem test_captures :
    let k := fun (bank time : Nat) => ({ slot := 0, stamp := 3, samples := [], check := false, failed := false, bank := bank, time := time } : Capture)
    let s := fun (x : Capture) => { withSlot .observe 0 with captures := [(0, [x])], fabric := 8 }
    let begins : Nat → Nat → State → State := fun b time y => y.setBank b { y.bank 0 with unit := some { programUnit with base := b / 2, id := b }, waits := some { instr := .axbegin 5, since := 0, cycle := time } }
    let fresh := fun (y : State) => y.setCur { y.cur with waits := none }
    waitsAt (.axbegin 5) (fresh (withSlot .observe 0)) ∧ (fresh (withSlot .observe 0)).reached 0 (.axbegin 5) = 1 ∧
    waitsAt (.axbegin 5) (begins 0 4 (s (k 0 5))) ∧ waitsAt (.axbegin 5) (begins 0 7 (s (k 2 6))) ∧
    after (.axbegin 5) (begins 0 7 (s (k 2 7))) (fun t => (t.cur.latch.map (·.mode)) == some .capture) ∧
    (let y := begins 2 7 (begins 0 7 (withSlot .observe 0))
     after (.axbegin 5) { y with fabric := 8 } (fun t => t.cur.latch.isSome) ∧ waitsAt (.axbegin 5) { y with fabric := 8, focus := 1 }) ∧
    (let y := begins 0 7 (fresh (s (k 2 7)))
     leaves (.churnCapture 0) y y ∧ leaves (.churnCapture 0) (fresh (s (k 2 8))) (fresh (s (k 2 8))) ∧
     after (.churnCapture 0) (begins 4 7 (fresh (s (k 2 7)))) (fun t => t.captures.isEmpty)) ∧
    insertCapture (k 2 7) ([k 3 6, k 2 7] ++ [k 3 7]) = [k 3 6, k 2 7] ++ k 2 7 :: [k 3 7] := by
  decide +kernel

/-- JobsHostTrafficAndHarvest: a peer's atomics, one at a failing Crock; a job whose context or frame lies in the tier's neighbour, host
memory, is refused; pages of HBM and of the host; a leaf and none. -/
theorem test_peer_and_ranges :
    let ask := fun (op : AtomOp) (v w : Nat) => Instr.peerMemoryRequest 0x90000008 8 { atom := some { op := op, operand := BitVec.ofNat 64 v, new := BitVec.ofNat 64 w } }
    let gives := fun (i : Instr) (v : Nat) => after i s2 (fun t => t.peek64 0x90000008 == BitVec.ofNat 64 v && t.signals.length == 1)
    s2.behind (0x90000008 + 7) = true ∧ s2.objectFault none 0x90000008 8 true = none ∧
    gives (ask .add 1 0) 0xF706050403020181 ∧ gives (ask .and 0xFF 0) 0x80 ∧ gives (ask .or 1 0) 0xF706050403020181 ∧ gives (ask .xor 0x80 0) 0xF706050403020100 ∧
    gives (ask .min 1 0) 0xF706050403020180 ∧ gives (ask .max 1 0) 1 ∧ gives (ask .swp 9 0) 9 ∧ gives (ask .cas 0xF706050403020180 5) 5 ∧ gives (ask .cas 1 5) 0xF706050403020180 ∧
    after (.peerMemoryRequest 0x90000008 4 { atom := some { op := .add, operand := 1 } }) s2 (fun t => t.peek64 0x90000008 == 0xF706050403020181 && t.signals == [.peerData [0x80, 1, 2, 3] []]) ∧
    after (ask .add 1 0) (withBadCrock 0x90000008 s2) (fun t => t.signals == [.peerFault 0x19] && t.badCrock.isEmpty && t.peek64 0x90000008 == 0xF706050403020180) ∧
    (s2.rangePage 0 0 0x90000000).2 = none ∧
    (let h := { s2 with mem := pokeAll s2.mem [(0x20008, hostBase + 0xFF)] }
     (pageOf (h.walk 0 0 0x90000000 { write := true }).2).map (·.frame) = some hostBase ∧ (h.rangePage 0 0 0x90000000).2 = some (0x06 : Code)) ∧
    (s2.findLeaf 0 0 0x90000000).2.map (·.leaf) = some (some 0x20008) ∧ (s2.findLeaf 0 0 0x10000).2 = none := by
  decide +kernel

/-- OwnershipAndPartitionCommands: a DESTROY waits while a copy reads a node that it drops. -/
theorem test_destroy_waits :
    let s := { s11 with mgmt := { s11.mgmt with running := some { code := 0, destroy := some 0 } }, nodes := [(0xA0000000, some { node1 with state := .evicting, tier := 2 })], index := [] }
    s.dropsLeft 0 = true ∧ leaves .partCmdComplete s s ∧
    after .partCmdComplete { s with nodes := [] } (fun t => t.mgmt.running.isNone && t.mgmt.partCode == 0) := by
  decide +kernel

/-- PowerMessagesAndBoot: an island that goes off loses all it holds, a critical reading stops the device in either check, causes that end
one before the other, and what a boot leaves of tags. -/
theorem test_power_causes :
    let mhz := fun (t : State) (i : Nat) => (SMap.get 1250 t.mgmt.domMhz i).toNat
    let off := ((owned.setPart 0 { owned.part 0 with islands := 0 }).setCore 96 { spFailed := 0x27, spad := [(0, 1)] })
    off.booted = true ∧ off.hasMaster .bmc = true ∧ islandOf 96 = 8 ∧ off.corePresent 96 = true ∧ off.holdsUnit true none 8 = true ∧
    after (.pwrDomReq .bmc 8 2) off (fun t => t.core 96 == {} && SMap.get 0 t.mgmt.domState 8 == 2) ∧
    after (.thermalThrottle 0 110) owned (fun t => t.mgmt.critical && !t.powered) ∧ after (.clockRestore 0 110) owned (fun t => t.mgmt.critical && !t.powered) ∧
    (let both := { owned with mgmt := { owned.mgmt with capped := true, cappedAt := 0, hot := true, hotAt := [(0, 5000000)], domMhz := [(0, 1225), (4, 1225)] }, now := 10000000 }
     after (.clockRestore 0 0) both (fun t => mhz t 0 == 1225 && mhz t 4 == 1250 && t.mgmt.capped == false && t.mgmt.hot)) ∧
    after (.powerOn []) { owned with tags := [(hostBase / 8, true), (0x100000000000 / 8, true), (5, true)], mem := [] } (fun t =>
      !t.tagAt 0x100000000000 && !t.tagAt 40 && t.tagAt hostBase) := by
  decide +kernel

/-- PowerMessagesAndBoot: what the SPDM messages carry. -/
theorem test_spdm :
    let tells := fun (i : Instr) (a : SpdmAnswer) => after i owned (fun t => match t.signals with | [.spdm b _] => b == a | _ => false)
    tells .getVersion (.version 1 3) ∧ tells .getCapabilities (.capabilities false false) ∧ after (.negotiateAlgorithms 1 2) owned (fun t => match t.signals with | [.spdm (.algorithms (.iana _) a h) _] => a == 1 && h == 2 && t.mgmt.spdmNegotiated | _ => false) ∧
    tells .getDigests (.digest 0 (shakeDigest owned.fuses.certChain)) ∧ tells (.getCertificate 0) (.certificate 0 owned.fuses.certChain) ∧
    after (.challenge 0 5) owned (fun t => match t.signals with | [.spdm (.challenge slot nonce _) _] => slot == 0 && nonce == 5 | _ => false) ∧
    (∀ k ∈ [0, 1, 6], after (.getMeasurements k) owned (fun t => match t.signals with | [.spdm (.measurement block none _) _] => block == k | _ => false)) ∧
    after (.getMeasurements 5) owned (fun t => match t.signals with | [.spdm (.measurement 5 (some _) _) _] => true | _ => false) := by
  decide +kernel

/-- ReservedWordRaisesIllegal: GANG with the word at a pc that is no multiple of 4, and where ERET found low bits of trap_pc. -/
theorem test_misaligned_fetch :
    let s := fun (pc : BitVec 64) (skew : BitVec 2) => (s0.setCur { s0.cur with pc := pc, skew := skew })
    let gang := fun (t : State) => (match t.issueOne exec with | .next u => bits u.cur.cause 0 8 == 0x1D && u.cur.pc == 0x80001000 | _ => false)
    (s 0x80000000 0).cur.nextTrap = none ∧ (s 0x80000000 2).fetchWaits 0 0x80000000 = false ∧ gang (s 0x80000000 2) = true ∧ gang (s 0x80000002 0) = true := by
  decide +kernel

/-- TrapDelivery, ReturnFromTheHandler: a member of a gang takes a trap alone, its mates hold, and ERET sends the group on together at trap_pc. -/
theorem test_group_returns :
    let t := gang2.takeTrap 2 { code := 0x05, info := 0x77 }
    (t.bank 2).trapGroup = some (2, false) ∧ (t.bank 2).issueWidth = 1 ∧ (t.bank 0).held = true ∧ (t.bank 2).level = 1 ∧
    after .eret { (t.setBank 2 { t.bank 2 with trapPc := 0x80000022 }) with focus := 1 } (fun u =>
      (u.bank 2).level == 0 && (u.bank 2).issueWidth == 2 && (u.bank 2).trapGroup.isNone && !(u.bank 0).held &&
      (u.bank 0).pc == 0x80000020 && (u.bank 2).pc == 0x80000020 && (u.bank 0).skew == 2 && (u.bank 2).skew == 2) := by
  decide +kernel

/-! ## A boot that verifies -/

/-- Bytes of bits, the most significant first. -/
def packBits : Nat → List Bool → List Byte
  | 0, _ => []
  | n + 1, bs => BitVec.ofNat 8 (ofBits (bs.take 8)) :: packBits n (bs.drop 8)

/-- The k low bits of a number, the most significant first. -/
def lowBits (k v : Nat) : List Bool := (List.range k).map (fun i => v.testBit (k - 1 - i))

/-- A signature whose nonce is 0 and whose short vector is 1. -/
def signature1 : List Byte :=
  let zero := [false, false, false, false, false, false, false, false, true]
  0x3A :: (List.replicate 40 0 ++ packBits 1239 ([false, false, false, false, false, false, false, true, true] ++ (List.replicate 1023 zero).flatten))

/-- The point of the nonce 0 and the digest of the code [1], which is the coefficients of the key below. -/
def point1 : List Nat := hashToPoint 1024 (List.replicate 40 0 ++ toBytes 64 (shakeDigest [1]).toNat)
def key1 : List Byte := 10 :: packBits 1792 (point1.flatMap (lowBits 14))
def goodImage : BootImage := { code := [1], key := key1, keyIndex := 3, version := 5, signature := signature1 }
def fused : State :=
  { State.reset with fuses := { State.reset.fuses with keyDigests := [(3, shakeDigest key1)], revoked := 7, minVersion := 5 } }

/-- The coefficients and the state of k blocks of SHAKE256. -/
def coeffs : Nat → List (BitVec 64) → List Nat
  | 0, _ => []
  | k + 1, a => pointCoeffs a ++ coeffs k (keccakF a)
def squeeze : Nat → List (BitVec 64) → List (BitVec 64)
  | 0, a => a
  | k + 1, a => squeeze k (keccakF a)

theorem coeffs_add (j k : Nat) (a : List (BitVec 64)) : coeffs (j + k) a = coeffs j a ++ coeffs k (squeeze j a) := by
  induction j generalizing a with
  | zero => simp [coeffs, squeeze]
  | succ j ih => rw [Nat.succ_add, coeffs, coeffs, squeeze, ih, List.append_assoc]

theorem pointFrom_length (n fuel : Nat) (a : List (BitVec 64)) (cs : List Nat) (h : n ≤ (cs ++ coeffs fuel a).length) :
    (pointFrom n fuel a cs).length = n := by
  induction fuel generalizing a cs with
  | zero => exact List.length_take_of_le (by simpa [coeffs] using h)
  | succ fuel ih =>
    rw [pointFrom]
    split
    · exact List.length_take_of_le ‹_›
    · exact ih _ _ (by simpa [coeffs] using h)

theorem pointFrom_small (n fuel : Nat) (a : List (BitVec 64)) (cs : List Nat) (h : ∀ v ∈ cs, v < falconQ) :
    ∀ v ∈ pointFrom n fuel a cs, v < falconQ := by
  induction fuel generalizing a cs with
  | zero => exact fun v hv => h v (List.mem_of_mem_take hv)
  | succ fuel ih =>
    rw [pointFrom]
    split
    · exact fun v hv => h v (List.mem_of_mem_take hv)
    · refine ih _ _ (fun v hv => ?_)
      rcases List.mem_append.mp hv with hv | hv
      · exact h v hv
      · obtain ⟨x, -, rfl⟩ := List.mem_map.mp hv
        exact Nat.mod_lt x (by decide)

theorem ofBits_snoc (xs : List Bool) (b : Bool) : ofBits (xs ++ [b]) = 2 * ofBits xs + (if b then 1 else 0) := by simp [ofBits]

theorem ofBits_low (k v : Nat) : ofBits (lowBits k v) = v % 2 ^ k := by
  induction k generalizing v with
  | zero => simp [lowBits, ofBits, Nat.mod_one]
  | succ k ih =>
    have h : lowBits (k + 1) v = lowBits k (v / 2) ++ [v.testBit 0] := by
      rw [lowBits, List.range_succ, List.map_append, lowBits]
      congr 1
      · refine List.map_congr_left (fun i hi => ?_)
        have hi := List.mem_range.mp hi
        rw [show k + 1 - 1 - i = (k - 1 - i) + 1 by omega, Nat.testBit_succ]
      · simp
    rw [h, ofBits_snoc, ih, Nat.pow_succ']
    have h2 := Nat.mod_mul (x := v) (a := 2) (b := 2 ^ k)
    rw [h2, Nat.testBit_zero]
    rcases Nat.mod_two_eq_zero_or_one v with e | e
    · simp [e]
    · simp [e]; omega

theorem keyCoeffs_low (vs : List Nat) (h : ∀ v ∈ vs, v < falconQ) : keyCoeffs vs.length (vs.flatMap (lowBits 14)) = some vs := by
  induction vs with
  | nil => rfl
  | cons v vs ih =>
    have hv : v < falconQ := h v (by simp)
    have hl : (lowBits 14 v).length = 14 := by simp [lowBits]
    have ho : ofBits (lowBits 14 v) = v := by rw [ofBits_low, Nat.mod_eq_of_lt (Nat.lt_trans hv (by decide))]
    rw [List.length_cons, List.flatMap_cons, keyCoeffs, List.take_left' hl, List.drop_left' hl, ho, if_neg (Nat.not_le.mpr hv),
      ih (fun x hx => h x (by simp [hx]))]
    rfl

theorem bits_of_byte : ∀ a b c d e f g h : Bool,
    (List.range 8).map (fun k => (BitVec.ofNat 8 (ofBits [a, b, c, d, e, f, g, h])).getLsbD (7 - k)) = [a, b, c, d, e, f, g, h] := by decide

theorem bitsOf_pack (n : Nat) (bs : List Bool) (h : bs.length = 8 * n) : bitsOf (packBits n bs) = bs := by
  induction n generalizing bs with
  | zero => rw [List.eq_nil_of_length_eq_zero h]; rfl
  | succ n ih =>
    match bs, h with
    | a :: b :: c :: d :: e :: f :: g :: i :: bs, h =>
      have hi := ih bs (by simp at h; omega)
      rw [bitsOf] at hi
      simp only [packBits, bitsOf, List.flatMap_cons, List.take_succ_cons, List.take_zero, List.drop_succ_cons, List.drop_zero, hi]
      rw [bits_of_byte]
      rfl

theorem packBits_length (n : Nat) (bs : List Bool) : (packBits n bs).length = n := by
  induction n generalizing bs with
  | zero => rfl
  | succ n ih => simp [packBits, ih]

/-! The states of SHAKE256 before every other block of the point, as another program gives them. -/

def block0 : List (BitVec 64) := [
   0xD56BEF9A29895BB1#64, 0x04DA6682CC4F3004#64, 0x122BA7B41A544753#64, 0xCE19B9B522518691#64, 0xB9B7B25EA16E376B#64,
   0x772E6E1D224DDD17#64, 0x766E95FFE205D831#64, 0x605ECFD304720C09#64, 0x020CDB7E0746F2BE#64, 0x5EEB19B38FCE0F5D#64,
   0x22F3DA0DB5335248#64, 0xDEFAA34DAC884DBF#64, 0x3A80328BD175A0F9#64, 0xE0FB4149D5ED2583#64, 0xD0C69AD6B5975E71#64,
   0x3DACCBBBE2A38C3B#64, 0x8DCCC8BCAA4447BD#64, 0xC776F43E276AD0E1#64, 0x40B910056AB29AC3#64, 0x2B7EB613A1B46BBE#64,
   0xCE3BBD25A8CDCCBC#64, 0x828B5F003399069E#64, 0x99332E9AA20FE07D#64, 0xD423AF69C7597A92#64, 0xA39EFEB3FCF95A67#64]
def block2 : List (BitVec 64) := [
   0x0D20D75AEFD85CE3#64, 0xCB46812AC85F7E8B#64, 0x126718E1CDC638DB#64, 0xE989999BB5BA47C3#64, 0xC737CE9CEEED1745#64,
   0xDA3B33FD44343EC9#64, 0xC0A4405B49299DB9#64, 0x471934D59DBC73AE#64, 0x0DD528D65299E4E1#64, 0xD910356463B54E56#64,
   0xA7B9C8E98424996C#64, 0x86466B696E55BC41#64, 0x4452D5512C1DF7E9#64, 0xA44460793211E0AD#64, 0x22EB686381506437#64,
   0x26C99EF51014B355#64, 0x4004A0498650F4A5#64, 0x33F0E896F7B9D04C#64, 0x8805C5EF3585E44E#64, 0x71CB4BDBABF70DBA#64,
   0xEFBD7FDF6505C0DC#64, 0x0743D2CACFD17E0E#64, 0xA70A20D744391FB8#64, 0xDA5F5EF72F53C010#64, 0xA6545A38C1CF4F5F#64]
def block4 : List (BitVec 64) := [
   0xEEA451B36A0F5D0F#64, 0xF3259D8696C44124#64, 0x2B38174A8D14E2C9#64, 0x4D8302B96A6AB396#64, 0x6AD415C2F013D9C4#64,
   0xF3FFB243717FEC09#64, 0xE770AFD3353655B5#64, 0x34257A4E150CB420#64, 0xFA17D7825C570FCE#64, 0x607FC36195C09DBC#64,
   0x9588E6A49DE9A129#64, 0x20A49BAA2F059FDD#64, 0x8F01105B506C1AE4#64, 0xE61CE379A5DCC88F#64, 0x63FAC4F4BF83C716#64,
   0x5E54725612E0F49E#64, 0x37D34C53C9179699#64, 0xC922B09924EFCC0C#64, 0x9201B40B28CB20F2#64, 0x5AFD32A289E4B215#64,
   0xBBB2B6789426283C#64, 0x24C72C7352D06781#64, 0xB2FE2138F3FCCFCD#64, 0xD070CE8E0081FB07#64, 0xB1F6AED1D0329EAC#64]
def block6 : List (BitVec 64) := [
   0xD1BBCDE6FDEC7114#64, 0x67156D1B97FBF521#64, 0xECB1F89725C25F55#64, 0x2D89400370639DE4#64, 0x3E03288FEBEF4779#64,
   0xF20F603A239F8719#64, 0x5D4E9A5DE027F4F1#64, 0x195AA3AEAB6A3EC7#64, 0x2F07A1D57D9A546B#64, 0xF29D12CDF4D1BABD#64,
   0x3DF7113AC21941C9#64, 0x7D259B84D472FE88#64, 0xCC546B01EAE749FC#64, 0xB7725B3B42F8E8A1#64, 0x47FDFC6AE59B2F68#64,
   0xFBE72078CDB464D3#64, 0x459E98E6FAEDB6F3#64, 0x82E4863DCAF7CDAA#64, 0x6ADDD11B049E6CE3#64, 0xF070432BC8BDDC45#64,
   0xA07805CD5C0C3F91#64, 0x9D1EB96D0823BCFD#64, 0x256491B004AF1418#64, 0x9053100D1243EB45#64, 0xA787FED04FC4C2FA#64]
def block8 : List (BitVec 64) := [
   0xA91FDF7CAB41700C#64, 0xC113E639D3476F20#64, 0x203AB112FDFCC2EC#64, 0xE4C49EC65A838F14#64, 0xB55DD1DBC49CAB0C#64,
   0x064DCA9C3108CE4B#64, 0x3E9A9D0288F7D6A7#64, 0xD0A2F46CC3224F90#64, 0xC625B89B24BE9E80#64, 0x94761C6207703B3C#64,
   0x04FF9FAA77FF4056#64, 0x906AE3EB81817103#64, 0x9D2065A0CE380992#64, 0x0A3BB03E42BDA83D#64, 0x374BCE84A62B39E3#64,
   0x07A619ADB32DBF6C#64, 0x576A0CF933175606#64, 0xB97719065E02B7CD#64, 0xE260236597760A28#64, 0x1E7F4E06F31F4EAF#64,
   0x2AF5149D1504322A#64, 0x56ED38296468E2ED#64, 0xDA0237C243FD0E96#64, 0xCEA7D131FA29A077#64, 0xF51F2A91FFCD7D6C#64]
def block10 : List (BitVec 64) := [
   0x7271C3F70A8F7808#64, 0x37805CBDDBEA4159#64, 0x89468D935A71735B#64, 0x66E43C43D1BAF723#64, 0x09F2AA1CBF1BE18E#64,
   0x5744FD56B3FDEE2F#64, 0x6E4F3DEEEC3398C2#64, 0xB0688CC169F45A4D#64, 0xB87DD224EC4E5F2B#64, 0x89EF3CCF12E985AD#64,
   0x1DBD10A91895F94B#64, 0xB74619795D7E08A7#64, 0x8BCF06B82D1A8659#64, 0xD66F82752CAEB8A2#64, 0x099C7D8E494186A2#64,
   0x1D8CF717AA6B3A3A#64, 0x15684B29D77E0C7D#64, 0x5EC2201DE713E9A6#64, 0xCF51BE12D25752EF#64, 0x3B7DBB1C8E6B95FA#64,
   0x40EE925A443A7A5A#64, 0x38E40478E6EFAB4C#64, 0x429993BF0F9790CD#64, 0x34B2388B3E784B99#64, 0x25561E05870D32F3#64]
def block12 : List (BitVec 64) := [
   0x583D535BF604C5EF#64, 0x05368581076E8E74#64, 0x45D4277C80A3B476#64, 0x0943D4D5469D5AC0#64, 0x197C641ECDCD610C#64,
   0x12E4C22DF5417CC6#64, 0xA213833743E1C5F5#64, 0xAAF24B93D6A486D3#64, 0x44F78F627BA642FB#64, 0x6C07DAA44B511445#64,
   0xD61B24FB5BB508E2#64, 0x3A2F83B7341E69D9#64, 0xD425C5D6A64C243D#64, 0xC382A911303030D7#64, 0x6E5372DD57D20F02#64,
   0xF364AD97C8619AF5#64, 0x0D66CF40D79F6B1D#64, 0x7CD116B9B012731E#64, 0x0F5922BC7FF10094#64, 0xA18E60D74E7FC49F#64,
   0x3688CDCF20279195#64, 0xD4EFDE0FC66628EA#64, 0x3B4840CD41780822#64, 0x7361EC2E3A901E1B#64, 0xCB81D70D2120C706#64]
def block14 : List (BitVec 64) := [
   0x9A0DAA2384BCDF6F#64, 0x4D26C0A621850794#64, 0xEB50D288FE7E1971#64, 0x182953965891B8EC#64, 0x0FDB2EF0055A29FA#64,
   0xCC1DA7FB7637AF4D#64, 0x127B55E9C95880C4#64, 0x902082CC48AEB673#64, 0xBC1B142A9F0B5115#64, 0xD616AB4282F6F60F#64,
   0x1218C7AF78AFA34E#64, 0x364D24E4A60DD9B4#64, 0x02743736EBEF92B1#64, 0xF973028818C707C1#64, 0x72BC6328A2EF97E2#64,
   0xEE924682531AF548#64, 0x7A56D3E854E19CC4#64, 0x8071316D65187675#64, 0xDD1328CDDF1BA18F#64, 0x6B16DBE64DFF4FDA#64,
   0xCEC03B22F5C91BB3#64, 0x5F6565019E18E4E4#64, 0x2DF84D2A05ACD7B6#64, 0x2F3ABA88E66172F6#64, 0xAB5A4AFBDCD067AC#64]

theorem block0_eq : sponge (List.replicate 40 0 ++ toBytes 64 (shakeDigest [1]).toNat) = block0 := by decide +kernel
theorem block0_run : squeeze 2 block0 = block2 ∧ (coeffs 2 block0).length = 127 := by decide +kernel
theorem block2_run : squeeze 2 block2 = block4 ∧ (coeffs 2 block2).length = 132 := by decide +kernel
theorem block4_run : squeeze 2 block4 = block6 ∧ (coeffs 2 block4).length = 130 := by decide +kernel
theorem block6_run : squeeze 2 block6 = block8 ∧ (coeffs 2 block6).length = 125 := by decide +kernel
theorem block8_run : squeeze 2 block8 = block10 ∧ (coeffs 2 block8).length = 126 := by decide +kernel
theorem block10_run : squeeze 2 block10 = block12 ∧ (coeffs 2 block10).length = 130 := by decide +kernel
theorem block12_run : squeeze 2 block12 = block14 ∧ (coeffs 2 block12).length = 127 := by decide +kernel
theorem block14_run : (coeffs 2 block14).length = 130 := by decide +kernel

theorem point1_length : point1.length = 1024 := by
  refine pointFrom_length _ _ _ _ ?_
  rw [block0_eq, List.nil_append,
    show (1024 : Nat) = 2 + (2 + (2 + (2 + (2 + (2 + (2 + (2 + 1008))))))) from rfl]
  simp only [coeffs_add, block0_run.1, block2_run.1, block4_run.1, block6_run.1, block8_run.1, block10_run.1, block12_run.1]
  simp only [List.length_append, block0_run.2, block2_run.2, block4_run.2, block6_run.2, block8_run.2, block10_run.2, block12_run.2, block14_run]
  omega

theorem falcon_key : falconKey 10 key1 = some point1 := by
  have hb : (point1.flatMap (lowBits 14)).length = 8 * 1792 := by
    rw [List.length_flatMap, List.map_congr_left (g := fun _ => 14) (fun v _ => by simp [lowBits]), List.map_const', point1_length, List.sum_replicate_nat]
  have hk := keyCoeffs_low point1 (pointFrom_small _ _ _ _ (by simp))
  rw [point1_length] at hk
  have h10 : (10 : BitVec 8).toNat = 10 := rfl
  have hc : ceilDiv (14 * 2 ^ 10) 8 = 1792 := rfl
  rw [key1, falconKey, packBits_length, if_pos ⟨h10, hc.symm⟩, bitsOf_pack _ _ hb]
  exact hk

theorem falcon_vector : decompress 1024 (bitsOf (signature1.drop 41)) = some (1 :: List.replicate 1023 0) := by decide +kernel

theorem subMul_zeros (n : Nat) (c h : List Int) (hl : c.length ≤ h.length) : subMul c (List.replicate n 0) h = c := by
  induction n generalizing h with
  | zero => rfl
  | succ n ih =>
    have hz : ∀ (c h : List Int), c.length ≤ h.length → List.zipWith (fun x y => x - 0 * y) c h = c := by
      intro c
      induction c with
      | nil => intro h _; rfl
      | cons x c ihc =>
        intro h hc
        cases h with
        | nil => simp at hc
        | cons y h => simp only [List.zipWith_cons_cons]; rw [ihc h (by simpa using hc)]; simp
    rw [List.replicate_succ, subMul, hz c h hl]
    exact ih _ (by simp [mulX]; omega)

theorem subMul_one (n : Nat) (c : List Int) : subMul c (1 :: List.replicate n 0) c = List.replicate c.length 0 := by
  have hz : List.zipWith (fun x y : Int => x - 1 * y) c c = List.replicate c.length 0 := by
    induction c with
    | nil => rfl
    | cons x c ih => simp only [List.zipWith_cons_cons, ih, List.length_cons, List.replicate_succ]; simp
  rw [subMul, hz]
  exact subMul_zeros n _ _ (by simp [mulX]; omega)

theorem foldl_zeros (n a : Nat) : (List.replicate n 0).foldl (· + ·) a = a := by
  induction n with
  | zero => rfl
  | succ n ih => simpa [List.replicate_succ] using ih

/-- PowerMessagesAndBoot: an image whose key is known, whose signature verifies and whose version is the least allowed. -/
theorem test_image_verified :
    shakeDigest goodImage.key = SMap.get 0 fused.fuses.keyDigests goodImage.keyIndex.toNat ∧ fused.fuses.revoked.getLsbD goodImage.keyIndex.toNat = false ∧
    fused.fuses.minVersion ≤ goodImage.version ∧
    falcon1024 goodImage.key (toBytes 64 (shakeDigest goodImage.code).toNat) goodImage.signature = true := by
  refine ⟨by rfl, by decide, by decide, ?_⟩
  have hk : falconKey 10 goodImage.key = some point1 := falcon_key
  have hd : decompress (2 ^ 10) (bitsOf (goodImage.signature.drop 41)) = some (1 :: List.replicate 1023 0) := falcon_vector
  have hn : (goodImage.signature.drop 1).take 40 = List.replicate 40 0 := by decide +kernel
  have hp : hashToPoint (2 ^ 10) (List.replicate 40 0 ++ toBytes 64 (shakeDigest goodImage.code).toNat) = point1 := rfl
  rw [falcon1024, falconVerify, hk, hd]
  simp only [hn, hp, shortEnough, subMul_one]
  have hl : goodImage.signature.length = 1280 ∧ (goodImage.signature.headD 0).toNat = 0x30 + 10 := by decide +kernel
  have hc : centred 0 = 0 := by decide
  have hs : ∀ n : Nat, (((List.replicate n (0 : Int)).map centred ++ 1 :: List.replicate 1023 0).map (fun x : Int => x.natAbs * x.natAbs)).foldl (· + ·) 0 = 1 := by
    intro n
    simp only [List.map_replicate, hc, List.map_append, List.map_cons, List.foldl_append, List.foldl_cons, Int.natAbs_zero, Int.natAbs_one,
      Nat.mul_one, Nat.mul_zero, foldl_zeros, Nat.zero_add]
  rw [hs, hl.1, hl.2]
  decide

/-! ## Accesses on their way, and what waits for them -/

/-- AcquireLoadsAndReleaseStores: an LDACQ of host memory keeps what it loaded while a store is on its way, and writes it once none is. -/
theorem test_host_acquire :
    let i : Instr := .ldacq 9 6 5 1 3 1
    let s := (regs s1 [(5, 8)]).setCur { (regs s1 [(5, 8)]).cur with h := [(6, { state := .valid, va := 0x90000000, frame := hostBase, size := 65536, limit := 65536, perm := 15, wi := true })] }
    let s := { s with mem := pokeAll s.mem [(hostBase + 8, 0x1234)] }
    let got := fun (t : State) => t.setCur { t.cur with waits := some { instr := i, since := 0, got := some [0x78, 0x56] } }
    after i s (fun t => t.reg 9 == 0x1234) ∧
    after i (withLate [0x90000040] s) (fun t => t.cur.waits.map (·.got) == some (some [0x34, 0x12]) && t.reg 9 == 0) ∧
    after i (got s) (fun t => t.reg 9 == 0x5678) ∧ waitsAt i (withLate [0x90000040] (got s)) ∧ s.gotten i = none ∧
    after (.strel 5 6 5 3 1) s (fun t => t.peek (hostBase + 8) 2 == 8) ∧ waitsAt (.strel 5 6 5 3 1) (withLate [hostBase + 64] s) := by
  decide +kernel

/-- ReferencesKeepTheirTags: a reference into host memory, one to a header that a late store writes; OBJINIT in host memory, of no size, and
where the Crock is full; ready stores of its lines are performed first. -/
theorem test_reference_places :
    let s := regs s3 [(8, 0x90000100), (9, 4), (10, 0)]
    let s := s.setCur { s.cur with h := SMap.set {} s.cur.h 6 { state := .valid, va := 0x90000000, frame := hostBase, size := 65536, limit := 65536, perm := 15, wi := true } }
    raised (.stref 8 1 5) { s with mem := pokeAll s.mem [(0x20008, hostBase + 0xFF)] } 0x06 0x90000100 ∧ waitsAt (.stref 8 1 5) (withLate [0x90000100] s) ∧
    raised (.objinit 9 6 32) s 0x06 0x90000200 ∧ raised (.objinit 10 6 32) s 0x06 0x90000200 ∧ raised (.objinit 10 1 32) (withFullCrocks s) 0x0C 0x90000200 ∧
    waitsAt (.objinit 9 1 32) (withFullCrocks s) ∧
    after (.objinit 9 1 32) (withLate [0x90000210] s) (fun t => t.cur.late.isEmpty && t.byte 0x90000210 == 7 && t.peek64 0x90000200 == 0x4000F) := by
  decide +kernel

/-- s with no bytes left at the ingress to HBM. -/
def throttled (s : State) : State := s.setPart 0 { s.part 0 with bwHbm := 1, buckets := [(0, { count := 0, since := 0 })] }

/-- PacketsReadAndWriteAtTheHome, FlagsSetAddAndWait: a closed ingress, and an add that goes before a packet. -/
theorem test_ingress_waits :
    let s := regs s2 [(5, 8), (8, 1)]
    let held := fun (i : Instr) => after i (throttled s) (fun t => t.cur.waits.map (·.why) == some .bucket)
    (throttled s).ingressOpen 0 0x90000008 = false ∧ held (.pkrd 9 1 5 0xFF) ∧ held (.pkwr 8 1 5 0xFF) ∧ held (.fladd 8 1 5 3 0) ∧
    (let a : PostedAdd := { pa := 0x90000008, va := 0x90000008, v := 1, scope := 3, order := 1, mode := 0 }
     let p := s.setCur { s.cur with fladds := [a] }
     p.packetHeld p2 = true ∧ waitsAt (.pkrd 9 1 5 0xFF) p ∧ waitsAt (.pkwr 8 1 5 0xFF) p) := by
  decide +kernel

/-- UnitsCommitYieldEndAndCancel, RetirementCascades: a retirement that mismatches traps in mode 2 and is counted in mode 1; a SPAWN, JDEC or
CANCEL of a member alone. -/
theorem test_retirement_mismatches :
    let s := fun (mode : BitVec 2) => { (s0.setPart 0 { s0.part 0 with scopeMode := mode }) with scopes := [(launchPa / 128, some { scope := 0, device := 0, core := 9 })] }
    (s 2).retireMismatch 0 programUnit.crec 0 = some 0xC0001030 ∧
    after .unitDone (s 2) (fun t => bits t.cur.cause 0 8 == 0x0E && t.cur.trapInfo == 0xC0001030 && (t.part 0).scopeCount == 1) ∧
    after .unitDone (s 1) (fun t => t.cur.unit.isNone && (t.part 0).scopeCount == 1 && (t.scopeAt (launchPa / 128)).map (·.core) == some 0) ∧
    (let alone := gang2.setBank 0 { gang2.bank 0 with issueWidth := 1 }
     ∀ i ∈ ([.spawn 1 2, .jdec 1 2, .cancel 0 1, .yield, .commit, .unitDone] : List Instr),
      after i { alone with focus := 0 } (fun t => bits (t.bank 0).cause 0 8 == 0x1D)) := by
  decide +kernel

/-- NodesOfTheCreamery: a walk of SEAL at a Crock that fails, and where the Crocks are full. -/
theorem test_seal_walks :
    let s := { withBadCrock 0xA0000080 s11 with records := [{ header := 0xA0000080, owner := 0, sealed := false, lines := [(0xA0000080 / 128, 1)] }] }
    raised (.seal 6 2) s 0x19 0xFF0000A0000080 ∧ after (.seal 6 2) (withFullCrocks s) (fun t => t.cur.waits.isSome && (t.node 0xA0000080).map (·.state) == some .opened) := by
  decide +kernel

/-- JobsHostTrafficAndHarvest: a peer's access that meets a fault leaves no record, one of mode 1 that mismatches goes on; a handle made while a
REVOKE was busy goes when busy clears. -/
theorem test_peer_sync_and_revoke :
    let z : PeerSync := { device := 3, core := 1, scope := 3, mode := 1 }
    let s := { s3 with scopes := [(0x1200000, some { scope := 0, device := 4, core := 9 })] }
    let bad := { s with badSectors := [(0x90000040 / 32, true)], lineMeta := [(0x1200000, { live := true, enc := 7 })], liveRegions := setTags s.liveRegions true [0x900] }
    after (.peerMemoryRequest 0x90000040 8 { sync := some z }) s (fun t => (t.scopeAt 0x1200000).map (·.device) == some 3) ∧
    after (.peerMemoryRequest 0x90000040 8 { sync := some { z with mode := 2 } }) s (fun t => t.signals == [.peerFault 0x0E] && (t.scopeAt 0x1200000).map (·.device) == some 4) ∧
    after (.peerMemoryRequest 0x90000040 8 { sync := some z }) bad (fun t => t.signals.getLast? == some (.peerFault 0x19) && (t.scopeAt 0x1200000).map (·.device) == some 4) ∧
    (let busy := fun (op va : Nat) => { s1 with mgmt := { s1.mgmt with harvest := BitVec.ofNat 64 (va / 65536 * 2 ^ 23 + op * 16 + 1) } }
     after .harvestCommandDone (busy 2 0x90000000) (fun t => (t.cur.handle 1).state == .invalid && bits t.mgmt.harvest 0 4 == 0) ∧
     after .harvestCommandDone (busy 3 0) (fun t => (t.cur.handle 4).state == .invalid && bits t.mgmt.harvest 0 4 == 0) ∧
     leaves .harvestCommandDone (withLate [0x90000040] (busy 2 0x90000000)) (withLate [0x90000040] (busy 2 0x90000000))) := by
  decide +kernel
end Sys2Proof.Tests
end

section
/-! PROOFS. The control registers (R127-R135): the level a CRR or CRW needs, what it does at that level, and what a register reads as
after a write. -/

namespace Sys2Proof.Machine

/-! ## The words of CRR and CRW (R98, R401) -/

theorem toNat_append_eq_add {w v : Nat} (x : BitVec w) (y : BitVec v) : (x ++ y).toNat = x.toNat * 2 ^ v + y.toNat := by
  rw [BitVec.toNat_append, ← Nat.shiftLeft_add_eq_or_of_lt y.isLt, Nat.shiftLeft_eq]

theorem wordInfo_crr (d : BitVec 6) (c : BitVec 12) :
    wordInfo (.crr d c) = BitVec.ofNat 64 (0xBC000000 + d.toNat * 2 ^ 18 + c.toNat) := by
  have hw : wordInfo (.crr d c) = BitVec.setWidth 64 (188#8 ++ d ++ 0#6 ++ c) := rfl
  have hd := d.isLt
  have hc := c.isLt
  apply BitVec.eq_of_toNat_eq
  simp only [hw, BitVec.toNat_setWidth, toNat_append_eq_add, BitVec.toNat_ofNat]
  omega

theorem wordInfo_crw (a : BitVec 6) (c : BitVec 12) :
    wordInfo (.crw a c) = BitVec.ofNat 64 (0xBD000000 + a.toNat * 2 ^ 12 + c.toNat) := by
  have hw : wordInfo (.crw a c) = BitVec.setWidth 64 (189#8 ++ 0#6 ++ a ++ c) := rfl
  have ha := a.isLt
  have hc := c.isLt
  apply BitVec.eq_of_toNat_eq
  simp only [hw, BitVec.toNat_setWidth, toNat_append_eq_add, BitVec.toNat_ofNat]
  omega

/-! ## The level a register needs (R5, R127) -/

theorem State.needLevel_below {s : State} {l : BitVec 2} (i : Instr) (k : Res) (h : s.cur.level.toNat < l.toNat) :
    s.needLevel i l k = .trap s (precise cPRIV (wordInfo i)) :=
  if_pos (BitVec.lt_def.mpr h)

theorem State.needLevel_reached {s : State} {l : BitVec 2} (i : Instr) (k : Res) (h : l.toNat ≤ s.cur.level.toNat) :
    s.needLevel i l k = k :=
  if_neg (fun hlt => Nat.not_lt.mpr h (BitVec.lt_def.mp hlt))

theorem toNat_crLevel (n : Nat) :
    (crLevel n).toNat = if 0x800 ≤ n then 2
      else if (0x002 ≤ n ∧ n ≤ 0x004) ∨ n = 0x115 ∨ (0x260 ≤ n ∧ n ≤ 0x263) ∨ (0x300 ≤ n ∧ n ≤ 0x3FF) then 1 else 0 := by
  unfold crLevel
  split
  · rfl
  · split <;> rfl

theorem State.enginesIdle_iff (s : State) :
    s.enginesIdle = true ↔ (s.cluster s.focus).qL = [] ∧ (s.cluster s.focus).qC = [] ∧ (s.cluster s.focus).qS = [] := by
  simp [State.enginesIdle, Cluster.idle, and_assoc]

theorem crReadWaits_iff (n : Nat) : crReadWaits n = true ↔ n = 0x00C ∨ n = 0x241 := by
  simp [crReadWaits]

theorem crWriteWaits_iff (n : Nat) :
    crWriteWaits n = true ↔ n = 0x00C ∨ n = 0x241 ∨ (0x110 ≤ n ∧ n ≤ 0x115) ∨ (0x120 ≤ n ∧ n ≤ 0x135) := by
  simp only [crWriteWaits, Bool.or_eq_true, Bool.and_eq_true, beq_iff_eq, decide_eq_true_eq]
  omega

/-! ## How CRR and CRW end (R127, R135) -/

section Ends

variable {s : State} {d : BitVec 6} {n : BitVec 12} (hfree : s.free [d] = true)
include hfree

theorem exec_crr_eq : exec (.crr d n) s = s.finish (.crr d n) (s.needLevel (.crr d n) (crLevel n.toNat)
    (if crReadWaits n.toNat && !s.enginesIdle then .wait s else s.result d (s.crValue n.toNat))) := by
  change s.finish _ (s.withRegs [d] _) = _
  rw [State.withRegs_free hfree]

theorem exec_crw_eq : exec (.crw d n) s = s.finish (.crw d n) (s.needLevel (.crw d n) (crLevel n.toNat)
    (if crWriteWaits n.toNat && !s.enginesIdle then .wait s
     else if 0x100 ≤ n.toNat && n.toNat < 0x110 && s.tileBusy (n.toNat - 0x100) then .wait s
     else .ok (s.crSet n.toNat (s.reg d)))) := by
  change s.finish _ (s.withRegs [d] _) = _
  rw [State.withRegs_free hfree]

theorem exec_crr_below (hlevel : s.cur.level.toNat < (crLevel n.toNat).toNat) :
    exec (.crr d n) s = .next (s.raises s (precise cPRIV (wordInfo (.crr d n)))) := by
  rw [exec_crr_eq hfree, State.needLevel_below _ _ hlevel, State.finish_trap]

theorem exec_crw_below (hlevel : s.cur.level.toNat < (crLevel n.toNat).toNat) :
    exec (.crw d n) s = .next (s.raises s (precise cPRIV (wordInfo (.crw d n)))) := by
  rw [exec_crw_eq hfree, State.needLevel_below _ _ hlevel, State.finish_trap]

theorem exec_crr_reads (hlevel : (crLevel n.toNat).toNat ≤ s.cur.level.toNat)
    (hidle : crReadWaits n.toNat = true → s.enginesIdle = true) :
    exec (.crr d n) s = .next (s.passed (s.setReg d (s.crValue n.toNat))) := by
  rw [exec_crr_eq hfree, State.needLevel_reached _ _ hlevel, if_neg (by simpa using hidle), State.result, State.finish_ok]

theorem exec_crr_waits (hlevel : (crLevel n.toNat).toNat ≤ s.cur.level.toNat) (hwaits : crReadWaits n.toNat = true)
    (hbusy : ¬ s.enginesIdle = true) : exec (.crr d n) s = .next (s.stalled s (.crr d n)) := by
  rw [exec_crr_eq hfree, State.needLevel_reached _ _ hlevel, if_pos (by simp [hwaits, hbusy]), State.finish_wait]

theorem exec_crw_writes (hlevel : (crLevel n.toNat).toNat ≤ s.cur.level.toNat)
    (hidle : crWriteWaits n.toNat = true → s.enginesIdle = true)
    (htile : 0x100 ≤ n.toNat → n.toNat < 0x110 → s.tileBusy (n.toNat - 0x100) = false) :
    exec (.crw d n) s = .next (s.passed (s.crSet n.toNat (s.reg d))) := by
  rw [exec_crw_eq hfree, State.needLevel_reached _ _ hlevel, if_neg (by simpa using hidle), if_neg (by simpa using htile),
    State.finish_ok]

end Ends

/-- The registers whose read waits for the engines are open to every level. -/
theorem crLevel_of_readWaits {n : Nat} (h : n = 0x00C ∨ n = 0x241) : crLevel n = 0 := by
  rcases h with rfl | rfl <;> rfl

/-- Settles O37: one lemma for each way a CRR or CRW ends, with the level, the word and the waits as the statement writes them. -/
theorem controlRegistersNeedTheirLevel : Obligations.ControlRegistersNeedTheirLevel := by
  unfold Obligations.ControlRegistersNeedTheirLevel
  intro s d n hfree
  dsimp only
  rw [← toNat_crLevel, ← State.enginesIdle_iff, ← wordInfo_crr, ← wordInfo_crw, ← crReadWaits_iff, ← crWriteWaits_iff]
  refine ⟨fun hlevel => ⟨exec_crr_below hfree hlevel, exec_crw_below hfree hlevel⟩, fun hlevel hidle => ?_,
    fun hlevel => exec_crw_writes hfree hlevel, fun hwaits => exec_crr_waits hfree ?_ hwaits⟩
  · exact ⟨_, exec_crr_reads hfree hlevel hidle, wrote_passed s d _⟩
  · rw [crLevel_of_readWaits ((crReadWaits_iff _).mp hwaits)]
    exact Nat.zero_le _

/-! ## Fields of a register (R5) -/

theorem zx_eq_ofNat {w : Nat} (x : BitVec w) : zx x = BitVec.ofNat 64 x.toNat := (BitVec.ofNat_toNat 64 x).symm

/-- A field in the low k bits, read back zero-extended, is the written word under the field's mask. -/
theorem zx_extractLsb'_zero (v : BitVec 64) (k : Nat) : zx (v.extractLsb' 0 k) = v &&& BitVec.ofNat 64 (2 ^ k - 1) := by
  apply BitVec.eq_of_getLsbD_eq
  intro i hi
  simp only [zx, BitVec.getLsbD_setWidth, BitVec.getLsbD_extractLsb', BitVec.getLsbD_and, BitVec.getLsbD_ofNat,
    Nat.testBit_two_pow_sub_one, hi, decide_true, Bool.true_and, Nat.zero_add, Bool.and_comm]

/-- A field of one bit at bit 0, read back as 1 or 0, is the written word under the mask 1. -/
theorem ite_bit_zero (v : BitVec 64) : (if bit v 0 = true then 1#64 else 0#64) = v &&& 1#64 := by
  rw [BitVec.and_one_eq_setWidth_ofBool_getLsbD, bit]
  cases v.getLsbD 0 <;> rfl

theorem and_full_mask (v : BitVec 64) : v &&& 0xFFFFFFFFFFFFFFFF#64 = v := BitVec.and_allOnes

/-- The two halves of a word make up the word. -/
theorem ofNat_halves (v : BitVec 64) :
    BitVec.ofNat 64 ((v.extractLsb' 32 32).toNat * 2 ^ 32 + (v.extractLsb' 0 32).toNat) = v := by
  have hv := v.isLt
  apply BitVec.eq_of_toNat_eq
  simp only [BitVec.toNat_ofNat, BitVec.extractLsb'_toNat, Nat.shiftRight_eq_div_pow]
  omega

/-! ## Registers read back (R5, R135) -/

theorem State.curCore_setCurCore (s : State) (c : Core) : (s.setCurCore c).curCore = c := State.core_setCore_same _ _ _

theorem State.curPart_setCurPart (s : State) (f : Partition → Partition) :
    (s.setCurPart f).part (s.setCurPart f).partNo = f (s.part s.partNo) := State.part_setPart_same _ _ _

/-- A write of register n reads back as the written word under the mask of its fields. -/
def ReadsBack (n : Nat) (mask : BitVec 64) : Prop := ∀ (s : State) (v : BitVec 64), (s.crSet n v).crValue n = v &&& mask

theorem readsBack_tshape {k : Nat} (hk : k < 16) : ReadsBack (0x100 + k) 0xF7FFFF#64 := by
  intro s v
  have hn : 0x100 ≤ 0x100 + k ∧ 0x100 + k < 0x110 := by omega
  simp only [State.crSet, State.crValue, if_pos hn, State.curCore_setCurCore, SMap.get_set_same]

theorem readsBack_spfmt {k : Nat} (hk : k < 22) : ReadsBack (0x120 + k) 0xF7#64 := by
  intro s v
  have ht : ¬ (0x100 ≤ 0x120 + k ∧ 0x120 + k < 0x110) := by omega
  have hn : 0x120 ≤ 0x120 + k ∧ 0x120 + k < 0x136 := by omega
  simp only [State.crSet, State.crValue, if_neg ht, if_pos hn, State.curCore_setCurCore, SMap.get_set_same]

theorem readsBack_spawnCtl : ReadsBack 0x011 0xFFFFFFFFFFFFFFFF := by
  intro s v
  calc (s.crSet 0x011 v).crValue 0x011
      = BitVec.ofNat 64 ((v.extractLsb' 32 32).toNat * 2 ^ 32 + (v.extractLsb' 0 32).toNat) := by
        simp [State.crSet, State.crValue]
    _ = v := ofNat_halves v
    _ = v &&& 0xFFFFFFFFFFFFFFFF := (and_full_mask v).symm

/-- The registers a bank holds for its unit, with the mask of their fields: the trap registers, fpflags, lc0 and lc1. -/
def unitRegisters : List (Nat × BitVec 64) :=
  [(0x002, 0xFFFFFFFFFFFFFFFF), (0x003, 0xFFFFFFFFFFFFFFFF), (0x004, 0xFFFFFFFFFFFFFFFF), (0x00C, 0x3F),
    (0x00D, 0xFFFFFFFFFFFFFFFF), (0x00E, 0xFFFFFFFFFFFFFFFF)]

/-- The registers of formats a core holds that the statement names: the first and last tshape and spfmt. -/
def formatRegisters : List (Nat × BitVec 64) := [(0x100, 0xF7FFFF), (0x10F, 0xF7FFFF), (0x120, 0xF7), (0x135, 0xF7)]

/-- The registers a bank holds for the Churn (R337) and the Separator (R323). -/
def agentRegisters : List (Nat × BitVec 64) :=
  [(0x200, 0xFFFFFFFF), (0x201, 0xFFFFFFFF), (0x202, 0xFFFFFFFF), (0x203, 0x1FF), (0x204, 0x1FFF), (0x205, 0xF), (0x206, 0xFF),
    (0x207, 1), (0x240, 0xF)]

/-- The registers of a partition: the Creamery's (R295), the scheduler's, and handler. -/
def partitionRegisters : List (Nat × BitVec 64) :=
  [(0x260, 3), (0x261, 0xFFFFFFFF), (0x262, 1), (0x263, 0xFFFFFFFFFFFFFFFF), (0x300, 0xFFFFFF), (0x301, 0x1F), (0x302, 0xFFFFF),
    (0x303, 0x1F), (0x304, 0xFFFFFFFF), (0x314, 1), (0x320, 0xFFFFFFFFFFFFFFFF)]

theorem unitRegisters_readBack : ∀ x ∈ unitRegisters, ReadsBack x.1 x.2 := by
  simp [unitRegisters, ReadsBack, State.crSet, State.crValue, zx_extractLsb'_zero, and_full_mask]

theorem formatRegisters_readBack : ∀ x ∈ formatRegisters, ReadsBack x.1 x.2 := by
  simp only [formatRegisters, List.forall_mem_cons]
  exact ⟨readsBack_tshape (k := 0) (by decide), readsBack_tshape (k := 15) (by decide), readsBack_spfmt (k := 0) (by decide),
    readsBack_spfmt (k := 21) (by decide), List.forall_mem_nil _⟩

theorem agentRegisters_readBack : ∀ x ∈ agentRegisters, ReadsBack x.1 x.2 := by
  simp [agentRegisters, ReadsBack, State.crSet, State.crValue, zx_extractLsb'_zero, ite_bit_zero]

theorem partitionRegisters_readBack : ∀ x ∈ partitionRegisters, ReadsBack x.1 x.2 := by
  simp [partitionRegisters, ReadsBack, State.crSet, State.crValue, State.curPart_setCurPart, zx_extractLsb'_zero, ite_bit_zero,
    and_full_mask]

/-- Registers that software only reads. -/
def readOnlyRegisters : List Nat :=
  [0x000, 0x001, 0x005, 0x006, 0x007, 0x008, 0x009, 0x00B, 0x00F, 0x010, 0x111, 0x112, 0x113, 0x114, 0x241, 0x264, 0x305, 0x306,
    0x307, 0x310, 0x311, 0x312, 0x313, 0x319, 0x321, 0x400, 0x41A, 0x4FF]

theorem crSet_readOnly (s : State) (v : BitVec 64) : ∀ n ∈ readOnlyRegisters, s.crSet n v = s := by
  simp [readOnlyRegisters, State.crSet]

/-- Settles O38: the written registers by who holds them (bank, core, partition), the read-only ones, and the plain ones by definition. -/
theorem controlRegistersReadBack : Obligations.ControlRegistersReadBack := by
  unfold Obligations.ControlRegistersReadBack
  refine ⟨fun s v x hx => ?_, fun s v n hn => crSet_readOnly s v n hn, fun s => ?_⟩
  · change x ∈ unitRegisters ++ (0x011, 0xFFFFFFFFFFFFFFFF) :: formatRegisters ++ agentRegisters ++ partitionRegisters at hx
    simp only [List.mem_append, List.mem_cons] at hx
    obtain ((hu | rfl | hf) | ha) | hp := hx
    · exact unitRegisters_readBack x hu s v
    · exact readsBack_spawnCtl s v
    · exact formatRegisters_readBack x hf s v
    · exact agentRegisters_readBack x ha s v
    · exact partitionRegisters_readBack x hp s v
  · exact ⟨rfl, rfl, rfl, zx_eq_ofNat s.cur.seq, zx_eq_ofNat s.cur.wdone, rfl, zx_eq_ofNat s.cur.fpflags, rfl, rfl, rfl, rfl⟩

end Sys2Proof.Machine
end
